-- ==== Sys2Proof/Word.lean ====
section
/-! DEFINITION. The word types of the machine (00_scope.md R10): bytes, words, doublewords, and the operand widths. -/

namespace Sys2Proof

/-- A byte, 8 bits (00_scope.md R10). -/
abbrev Byte := BitVec 8

/-- A word, 16 bits (00_scope.md R10). -/
abbrev Word := BitVec 16

/-- A doubleword, 32 bits (00_scope.md R10). -/
abbrev Dword := BitVec 32

/-- The three operand widths of the instruction set (30_encoding.md R200, R220). -/
inductive Width where
  | w8
  | w16
  | w32
deriving DecidableEq, Repr

/-- How many bits an operand of this width has. -/
@[reducible] def Width.bits : Width → Nat
  | .w8 => 8
  | .w16 => 16
  | .w32 => 32

/-- How many bytes an operand of this width has. -/
def Width.bytes : Width → Nat
  | .w8 => 1
  | .w16 => 2
  | .w32 => 4

/-- The width `v` of 30_encoding.md R220: dword when the operand-size attribute is 32, else word. -/
def Width.ofOs (os32 : Bool) : Width := if os32 then .w32 else .w16

end Sys2Proof
end

