-- ==== Sys2Proof/Config.lean ====
section
/-! DEFINITION. What an implementation fixes (00_scope.md R7, 92_eei_decisions.md part 2) and the free values. -/

namespace Sys2Proof

/-- The free values: whatever the spec leaves undefined and the machine goes on from
(93_implementation_defined.md, treatment `any value`) is `freeValue n` for the n-th draw. It has no body, so
nothing can be proved of it. DESIGN CHOICE, safe (log 5). -/
opaque Config.freeValue : Nat → Dword

/-- Parameter STEPPING_DL: the revision identifier in DL after reset, stepping D1 of 10_state.md R93.
DESIGN CHOICE, unsafe (log 3). -/
def Config.steppingDl : Byte := 0x08

/-- Parameter PREFETCH_WINDOW: how far ahead of the current instruction bytes may already have been fetched,
16 + 3 * 15 bytes (92_eei_decisions.md part 2). DEDUCED, safe (log 7). -/
def Config.prefetchWindow : Nat := 61

/-- The longest instruction, prefixes included (30_encoding.md R208). -/
def Config.maxInstrLen : Nat := 15

end Sys2Proof
end

