-- ==== Sys2Proof/Syntax.lean ====
section
/-! DEFINITION. The syntax of instructions: one constructor per row of spec/opcode_table.json, in the table's order. The
prefix bytes are rows of the table and constructors too (30_encoding.md R202; log 6). -/

namespace Sys2Proof

/-- The encoding numbers 0 to 7 of the general registers (10_state.md R21). The same number names the 32-bit
register, its low word (R22) and, for byte operands, AL CL DL BL AH CH DH BH in this order (R23). -/
inductive Reg where
  | eax | ecx | edx | ebx | esp | ebp | esi | edi
deriving DecidableEq, Repr

/-- The segment registers in the order of their encoding numbers 0 to 5 (10_state.md R50). -/
inductive Sreg where
  | es | cs | ss | ds | fs | gs
deriving DecidableEq, Repr

/-- The register parts of a 16-bit address, in the order of the rm field (30_encoding.md R212). -/
inductive Base16 where
  | bxsi | bxdi | bpsi | bpdi | si | di | bp | bx
deriving DecidableEq, Repr

/-- A memory operand: 16-bit addressing (30_encoding.md R212) or 32-bit addressing with an optional base, an
optional index scaled by 1, 2, 4, 8 for 0 to 3, and a displacement (R213, R214). A displacement of 8 bits is held
sign-extended, a missing one as 0. -/
inductive EA where
  | mem16 (base : Option Base16) (disp : Word)
  | mem32 (base : Option Reg) (index : Option (Reg × BitVec 2)) (disp : Dword)
deriving DecidableEq, Repr

/-- The r/m operand (30_encoding.md R211). -/
inductive Rm where
  | reg (r : Reg)
  | mem (ea : EA)
deriving DecidableEq, Repr

/-- The instructions. Widths: `8` byte, `v` the operand size OS (30_encoding.md R206), `16` and `32` fixed.
Immediates and offsets of OS or AS bits are held zero-extended in a doubleword; 8-bit ones as they stand. -/
inductive Instr where
  /-- ADD r/m8, r8 (00 /r): 41_arithmetic.md R362. -/
  | addRm8R8 (rm : Rm) (r : Reg)
  /-- ADD r/mv, rv (01 /r): 41_arithmetic.md R362. -/
  | addRmvRv (rm : Rm) (r : Reg)
  /-- ADD r8, r/m8 (02 /r): 41_arithmetic.md R362. -/
  | addR8Rm8 (r : Reg) (rm : Rm)
  /-- ADD rv, r/mv (03 /r): 41_arithmetic.md R362. -/
  | addRvRmv (r : Reg) (rm : Rm)
  /-- ADD AL, imm8 (04 imm8): 41_arithmetic.md R362. -/
  | addAlImm8 (imm : Byte)
  /-- ADD eAX, immv (05 immv): 41_arithmetic.md R362. -/
  | addEaxImmv (imm : Dword)
  /-- ADD r/m8, imm8 (80 /0 imm8): 41_arithmetic.md R362. -/
  | addRm8Imm8 (rm : Rm) (imm : Byte)
  /-- ADD r/mv, immv (81 /0 immv): 41_arithmetic.md R362. -/
  | addRmvImmv (rm : Rm) (imm : Dword)
  /-- ADD r/mv, simm8 (83 /0 simm8): 41_arithmetic.md R362. -/
  | addRmvSimm8 (rm : Rm) (imm : Byte)
  /-- OR r/m8, r8 (08 /r): 43_logical_shift_rotate.md R423. -/
  | orRm8R8 (rm : Rm) (r : Reg)
  /-- OR r/mv, rv (09 /r): 43_logical_shift_rotate.md R423. -/
  | orRmvRv (rm : Rm) (r : Reg)
  /-- OR r8, r/m8 (0A /r): 43_logical_shift_rotate.md R423. -/
  | orR8Rm8 (r : Reg) (rm : Rm)
  /-- OR rv, r/mv (0B /r): 43_logical_shift_rotate.md R423. -/
  | orRvRmv (r : Reg) (rm : Rm)
  /-- OR AL, imm8 (0C imm8): 43_logical_shift_rotate.md R423. -/
  | orAlImm8 (imm : Byte)
  /-- OR eAX, immv (0D immv): 43_logical_shift_rotate.md R423. -/
  | orEaxImmv (imm : Dword)
  /-- OR r/m8, imm8 (80 /1 imm8): 43_logical_shift_rotate.md R423. -/
  | orRm8Imm8 (rm : Rm) (imm : Byte)
  /-- OR r/mv, immv (81 /1 immv): 43_logical_shift_rotate.md R423. -/
  | orRmvImmv (rm : Rm) (imm : Dword)
  /-- OR r/mv, simm8 (83 /1 simm8): 43_logical_shift_rotate.md R423. -/
  | orRmvSimm8 (rm : Rm) (imm : Byte)
  /-- ADC r/m8, r8 (10 /r): 41_arithmetic.md R363. -/
  | adcRm8R8 (rm : Rm) (r : Reg)
  /-- ADC r/mv, rv (11 /r): 41_arithmetic.md R363. -/
  | adcRmvRv (rm : Rm) (r : Reg)
  /-- ADC r8, r/m8 (12 /r): 41_arithmetic.md R363. -/
  | adcR8Rm8 (r : Reg) (rm : Rm)
  /-- ADC rv, r/mv (13 /r): 41_arithmetic.md R363. -/
  | adcRvRmv (r : Reg) (rm : Rm)
  /-- ADC AL, imm8 (14 imm8): 41_arithmetic.md R363. -/
  | adcAlImm8 (imm : Byte)
  /-- ADC eAX, immv (15 immv): 41_arithmetic.md R363. -/
  | adcEaxImmv (imm : Dword)
  /-- ADC r/m8, imm8 (80 /2 imm8): 41_arithmetic.md R363. -/
  | adcRm8Imm8 (rm : Rm) (imm : Byte)
  /-- ADC r/mv, immv (81 /2 immv): 41_arithmetic.md R363. -/
  | adcRmvImmv (rm : Rm) (imm : Dword)
  /-- ADC r/mv, simm8 (83 /2 simm8): 41_arithmetic.md R363. -/
  | adcRmvSimm8 (rm : Rm) (imm : Byte)
  /-- SBB r/m8, r8 (18 /r): 41_arithmetic.md R368. -/
  | sbbRm8R8 (rm : Rm) (r : Reg)
  /-- SBB r/mv, rv (19 /r): 41_arithmetic.md R368. -/
  | sbbRmvRv (rm : Rm) (r : Reg)
  /-- SBB r8, r/m8 (1A /r): 41_arithmetic.md R368. -/
  | sbbR8Rm8 (r : Reg) (rm : Rm)
  /-- SBB rv, r/mv (1B /r): 41_arithmetic.md R368. -/
  | sbbRvRmv (r : Reg) (rm : Rm)
  /-- SBB AL, imm8 (1C imm8): 41_arithmetic.md R368. -/
  | sbbAlImm8 (imm : Byte)
  /-- SBB eAX, immv (1D immv): 41_arithmetic.md R368. -/
  | sbbEaxImmv (imm : Dword)
  /-- SBB r/m8, imm8 (80 /3 imm8): 41_arithmetic.md R368. -/
  | sbbRm8Imm8 (rm : Rm) (imm : Byte)
  /-- SBB r/mv, immv (81 /3 immv): 41_arithmetic.md R368. -/
  | sbbRmvImmv (rm : Rm) (imm : Dword)
  /-- SBB r/mv, simm8 (83 /3 simm8): 41_arithmetic.md R368. -/
  | sbbRmvSimm8 (rm : Rm) (imm : Byte)
  /-- AND r/m8, r8 (20 /r): 43_logical_shift_rotate.md R422. -/
  | andRm8R8 (rm : Rm) (r : Reg)
  /-- AND r/mv, rv (21 /r): 43_logical_shift_rotate.md R422. -/
  | andRmvRv (rm : Rm) (r : Reg)
  /-- AND r8, r/m8 (22 /r): 43_logical_shift_rotate.md R422. -/
  | andR8Rm8 (r : Reg) (rm : Rm)
  /-- AND rv, r/mv (23 /r): 43_logical_shift_rotate.md R422. -/
  | andRvRmv (r : Reg) (rm : Rm)
  /-- AND AL, imm8 (24 imm8): 43_logical_shift_rotate.md R422. -/
  | andAlImm8 (imm : Byte)
  /-- AND eAX, immv (25 immv): 43_logical_shift_rotate.md R422. -/
  | andEaxImmv (imm : Dword)
  /-- AND r/m8, imm8 (80 /4 imm8): 43_logical_shift_rotate.md R422. -/
  | andRm8Imm8 (rm : Rm) (imm : Byte)
  /-- AND r/mv, immv (81 /4 immv): 43_logical_shift_rotate.md R422. -/
  | andRmvImmv (rm : Rm) (imm : Dword)
  /-- AND r/mv, simm8 (83 /4 simm8): 43_logical_shift_rotate.md R422. -/
  | andRmvSimm8 (rm : Rm) (imm : Byte)
  /-- SUB r/m8, r8 (28 /r): 41_arithmetic.md R367. -/
  | subRm8R8 (rm : Rm) (r : Reg)
  /-- SUB r/mv, rv (29 /r): 41_arithmetic.md R367. -/
  | subRmvRv (rm : Rm) (r : Reg)
  /-- SUB r8, r/m8 (2A /r): 41_arithmetic.md R367. -/
  | subR8Rm8 (r : Reg) (rm : Rm)
  /-- SUB rv, r/mv (2B /r): 41_arithmetic.md R367. -/
  | subRvRmv (r : Reg) (rm : Rm)
  /-- SUB AL, imm8 (2C imm8): 41_arithmetic.md R367. -/
  | subAlImm8 (imm : Byte)
  /-- SUB eAX, immv (2D immv): 41_arithmetic.md R367. -/
  | subEaxImmv (imm : Dword)
  /-- SUB r/m8, imm8 (80 /5 imm8): 41_arithmetic.md R367. -/
  | subRm8Imm8 (rm : Rm) (imm : Byte)
  /-- SUB r/mv, immv (81 /5 immv): 41_arithmetic.md R367. -/
  | subRmvImmv (rm : Rm) (imm : Dword)
  /-- SUB r/mv, simm8 (83 /5 simm8): 41_arithmetic.md R367. -/
  | subRmvSimm8 (rm : Rm) (imm : Byte)
  /-- XOR r/m8, r8 (30 /r): 43_logical_shift_rotate.md R424. -/
  | xorRm8R8 (rm : Rm) (r : Reg)
  /-- XOR r/mv, rv (31 /r): 43_logical_shift_rotate.md R424. -/
  | xorRmvRv (rm : Rm) (r : Reg)
  /-- XOR r8, r/m8 (32 /r): 43_logical_shift_rotate.md R424. -/
  | xorR8Rm8 (r : Reg) (rm : Rm)
  /-- XOR rv, r/mv (33 /r): 43_logical_shift_rotate.md R424. -/
  | xorRvRmv (r : Reg) (rm : Rm)
  /-- XOR AL, imm8 (34 imm8): 43_logical_shift_rotate.md R424. -/
  | xorAlImm8 (imm : Byte)
  /-- XOR eAX, immv (35 immv): 43_logical_shift_rotate.md R424. -/
  | xorEaxImmv (imm : Dword)
  /-- XOR r/m8, imm8 (80 /6 imm8): 43_logical_shift_rotate.md R424. -/
  | xorRm8Imm8 (rm : Rm) (imm : Byte)
  /-- XOR r/mv, immv (81 /6 immv): 43_logical_shift_rotate.md R424. -/
  | xorRmvImmv (rm : Rm) (imm : Dword)
  /-- XOR r/mv, simm8 (83 /6 simm8): 43_logical_shift_rotate.md R424. -/
  | xorRmvSimm8 (rm : Rm) (imm : Byte)
  /-- CMP r/m8, r8 (38 /r): 41_arithmetic.md R371. -/
  | cmpRm8R8 (rm : Rm) (r : Reg)
  /-- CMP r/mv, rv (39 /r): 41_arithmetic.md R371. -/
  | cmpRmvRv (rm : Rm) (r : Reg)
  /-- CMP r8, r/m8 (3A /r): 41_arithmetic.md R371. -/
  | cmpR8Rm8 (r : Reg) (rm : Rm)
  /-- CMP rv, r/mv (3B /r): 41_arithmetic.md R371. -/
  | cmpRvRmv (r : Reg) (rm : Rm)
  /-- CMP AL, imm8 (3C imm8): 41_arithmetic.md R371. -/
  | cmpAlImm8 (imm : Byte)
  /-- CMP eAX, immv (3D immv): 41_arithmetic.md R371. -/
  | cmpEaxImmv (imm : Dword)
  /-- CMP r/m8, imm8 (80 /7 imm8): 41_arithmetic.md R371. -/
  | cmpRm8Imm8 (rm : Rm) (imm : Byte)
  /-- CMP r/mv, immv (81 /7 immv): 41_arithmetic.md R371. -/
  | cmpRmvImmv (rm : Rm) (imm : Dword)
  /-- CMP r/mv, simm8 (83 /7 simm8): 41_arithmetic.md R371. -/
  | cmpRmvSimm8 (rm : Rm) (imm : Byte)
  /-- PUSH ES (06): 40_data_transfer.md R309. -/
  | pushEs
  /-- PUSH CS (0E): 40_data_transfer.md R309. -/
  | pushCs
  /-- PUSH SS (16): 40_data_transfer.md R309. -/
  | pushSs
  /-- PUSH DS (1E): 40_data_transfer.md R309. -/
  | pushDs
  /-- PUSH FS (0F A0): 40_data_transfer.md R309. -/
  | pushFs
  /-- PUSH GS (0F A8): 40_data_transfer.md R309. -/
  | pushGs
  /-- POP ES (07): 40_data_transfer.md R311. -/
  | popEs
  /-- POP SS (17): 40_data_transfer.md R311. -/
  | popSs
  /-- POP DS (1F): 40_data_transfer.md R311. -/
  | popDs
  /-- POP FS (0F A1): 40_data_transfer.md R311. -/
  | popFs
  /-- POP GS (0F A9): 40_data_transfer.md R311. -/
  | popGs
  /-- DAA (27): 41_arithmetic.md R366. -/
  | daa
  /-- DAS (2F): 41_arithmetic.md R372. -/
  | das
  /-- AAA (37): 41_arithmetic.md R365. -/
  | aaa
  /-- AAS (3F): 41_arithmetic.md R373. -/
  | aas
  /-- INC rv (40+r): 41_arithmetic.md R364. -/
  | incRv (r : Reg)
  /-- DEC rv (48+r): 41_arithmetic.md R369. -/
  | decRv (r : Reg)
  /-- PUSH rv (50+r): 40_data_transfer.md R308. -/
  | pushRv (r : Reg)
  /-- POP rv (58+r): 40_data_transfer.md R310. -/
  | popRv (r : Reg)
  /-- PUSHA_PUSHAD (60): 40_data_transfer.md R312. -/
  | pusha
  /-- POPA_POPAD (61): 40_data_transfer.md R313. -/
  | popa
  /-- BOUND rv, m (62 /r): 46_high_level.md R500. -/
  | bound (r : Reg) (ea : EA)
  /-- ARPL r/m16, r16 (63 /r): 47_protection_model.md R520. -/
  | arpl (rm : Rm) (r : Reg)
  /-- PUSH immv (68 immv): 40_data_transfer.md R308. -/
  | pushImmv (imm : Dword)
  /-- PUSH simm8 (6A simm8): 40_data_transfer.md R308. -/
  | pushSimm8 (imm : Byte)
  /-- IMUL rv, r/mv, immv (69 /r immv): 41_arithmetic.md R382. -/
  | imulRvRmvImmv (r : Reg) (rm : Rm) (imm : Dword)
  /-- IMUL rv, r/mv, simm8 (6B /r simm8): 41_arithmetic.md R382. -/
  | imulRvRmvSimm8 (r : Reg) (rm : Rm) (imm : Byte)
  /-- INSB (6C): 42_string.md R407. -/
  | insb
  /-- INSW_INSD (6D): 42_string.md R407. -/
  | insv
  /-- OUTSB (6E): 42_string.md R408. -/
  | outsb
  /-- OUTSW_OUTSD (6F): 42_string.md R408. -/
  | outsv
  /-- JO rel8 (70 rel8): 45_control_transfer.md R463. -/
  | joRel8 (rel : Byte)
  /-- JNO rel8 (71 rel8): 45_control_transfer.md R463. -/
  | jnoRel8 (rel : Byte)
  /-- JB_JNAE_JC rel8 (72 rel8): 45_control_transfer.md R463. -/
  | jbRel8 (rel : Byte)
  /-- JAE_JNB_JNC rel8 (73 rel8): 45_control_transfer.md R463. -/
  | jaeRel8 (rel : Byte)
  /-- JE_JZ rel8 (74 rel8): 45_control_transfer.md R463. -/
  | jeRel8 (rel : Byte)
  /-- JNE_JNZ rel8 (75 rel8): 45_control_transfer.md R463. -/
  | jneRel8 (rel : Byte)
  /-- JBE_JNA rel8 (76 rel8): 45_control_transfer.md R463. -/
  | jbeRel8 (rel : Byte)
  /-- JA_JNBE rel8 (77 rel8): 45_control_transfer.md R463. -/
  | jaRel8 (rel : Byte)
  /-- JS rel8 (78 rel8): 45_control_transfer.md R463. -/
  | jsRel8 (rel : Byte)
  /-- JNS rel8 (79 rel8): 45_control_transfer.md R463. -/
  | jnsRel8 (rel : Byte)
  /-- JP_JPE rel8 (7A rel8): 45_control_transfer.md R463. -/
  | jpRel8 (rel : Byte)
  /-- JNP_JPO rel8 (7B rel8): 45_control_transfer.md R463. -/
  | jnpRel8 (rel : Byte)
  /-- JL_JNGE rel8 (7C rel8): 45_control_transfer.md R463. -/
  | jlRel8 (rel : Byte)
  /-- JGE_JNL rel8 (7D rel8): 45_control_transfer.md R463. -/
  | jgeRel8 (rel : Byte)
  /-- JLE_JNG rel8 (7E rel8): 45_control_transfer.md R463. -/
  | jleRel8 (rel : Byte)
  /-- JG_JNLE rel8 (7F rel8): 45_control_transfer.md R463. -/
  | jgRel8 (rel : Byte)
  /-- TEST r/m8, r8 (84 /r): 43_logical_shift_rotate.md R425. -/
  | testRm8R8 (rm : Rm) (r : Reg)
  /-- TEST r/mv, rv (85 /r): 43_logical_shift_rotate.md R425. -/
  | testRmvRv (rm : Rm) (r : Reg)
  /-- XCHG r/m8, r8 (86 /r): 40_data_transfer.md R314. -/
  | xchgRm8R8 (rm : Rm) (r : Reg)
  /-- XCHG r/mv, rv (87 /r): 40_data_transfer.md R314. -/
  | xchgRmvRv (rm : Rm) (r : Reg)
  /-- MOV r/m8, r8 (88 /r): 40_data_transfer.md R303. -/
  | movRm8R8 (rm : Rm) (r : Reg)
  /-- MOV r/mv, rv (89 /r): 40_data_transfer.md R303. -/
  | movRmvRv (rm : Rm) (r : Reg)
  /-- MOV r8, r/m8 (8A /r): 40_data_transfer.md R303. -/
  | movR8Rm8 (r : Reg) (rm : Rm)
  /-- MOV rv, r/mv (8B /r): 40_data_transfer.md R303. -/
  | movRvRmv (r : Reg) (rm : Rm)
  /-- MOV r/m16, sreg (8C /r): 40_data_transfer.md R306. -/
  | movRm16Sreg (rm : Rm) (sr : Sreg)
  /-- LEA rv, m (8D /r): 40_data_transfer.md R330. -/
  | lea (r : Reg) (ea : EA)
  /-- MOV sreg, r/m16 (8E /r): 40_data_transfer.md R307. -/
  | movSregRm16 (sr : Sreg) (rm : Rm)
  /-- POP r/mv (8F /0): 40_data_transfer.md R310. -/
  | popRmv (rm : Rm)
  /-- NOP (90): 40_data_transfer.md R316. -/
  | nop
  /-- XCHG eAX, rv (90+r): 40_data_transfer.md R314. -/
  | xchgEaxRv (r : Reg)
  /-- CBW_CWDE (98): 40_data_transfer.md R322. -/
  | cbw
  /-- CWD_CDQ (99): 40_data_transfer.md R323. -/
  | cwd
  /-- CALL ptr16:v (9A offset): 45_control_transfer.md R478. -/
  | callPtr (off : Dword) (sel : Word)
  /-- WAIT (9B): 48_processor_control.md R542. -/
  | wait
  /-- PUSHF_PUSHFD (9C): 40_data_transfer.md R342. -/
  | pushf
  /-- POPF_POPFD (9D): 40_data_transfer.md R345. -/
  | popf
  /-- SAHF (9E): 40_data_transfer.md R341. -/
  | sahf
  /-- LAHF (9F): 40_data_transfer.md R340. -/
  | lahf
  /-- MOV AL, moffs8 (A0 moffs): 40_data_transfer.md R305. -/
  | movAlMoffs8 (off : Dword)
  /-- MOV eAX, moffsv (A1 moffs): 40_data_transfer.md R305. -/
  | movEaxMoffsv (off : Dword)
  /-- MOV moffs8, AL (A2 moffs): 40_data_transfer.md R305. -/
  | movMoffs8Al (off : Dword)
  /-- MOV moffsv, eAX (A3 moffs): 40_data_transfer.md R305. -/
  | movMoffsvEax (off : Dword)
  /-- MOVSB (A4): 42_string.md R402. -/
  | movsb
  /-- MOVSW_MOVSD (A5): 42_string.md R402. -/
  | movsv
  /-- CMPSB (A6): 42_string.md R403. -/
  | cmpsb
  /-- CMPSW_CMPSD (A7): 42_string.md R403. -/
  | cmpsv
  /-- STOSB (AA): 42_string.md R406. -/
  | stosb
  /-- STOSW_STOSD (AB): 42_string.md R406. -/
  | stosv
  /-- LODSB (AC): 42_string.md R405. -/
  | lodsb
  /-- LODSW_LODSD (AD): 42_string.md R405. -/
  | lodsv
  /-- SCASB (AE): 42_string.md R404. -/
  | scasb
  /-- SCASW_SCASD (AF): 42_string.md R404. -/
  | scasv
  /-- TEST AL, imm8 (A8 imm8): 43_logical_shift_rotate.md R425. -/
  | testAlImm8 (imm : Byte)
  /-- TEST eAX, immv (A9 immv): 43_logical_shift_rotate.md R425. -/
  | testEaxImmv (imm : Dword)
  /-- MOV r8, imm8 (B0+r imm8): 40_data_transfer.md R304. -/
  | movR8Imm8 (r : Reg) (imm : Byte)
  /-- MOV rv, immv (B8+r immv): 40_data_transfer.md R304. -/
  | movRvImmv (r : Reg) (imm : Dword)
  /-- ROL r/m8, imm8 (C0 /0 imm8): 43_logical_shift_rotate.md R440. -/
  | rolRm8Imm8 (rm : Rm) (imm : Byte)
  /-- ROL r/mv, imm8 (C1 /0 imm8): 43_logical_shift_rotate.md R440. -/
  | rolRmvImm8 (rm : Rm) (imm : Byte)
  /-- ROL r/m8, 1 (D0 /0): 43_logical_shift_rotate.md R440. -/
  | rolRm8One (rm : Rm)
  /-- ROL r/mv, 1 (D1 /0): 43_logical_shift_rotate.md R440. -/
  | rolRmvOne (rm : Rm)
  /-- ROL r/m8, CL (D2 /0): 43_logical_shift_rotate.md R440. -/
  | rolRm8Cl (rm : Rm)
  /-- ROL r/mv, CL (D3 /0): 43_logical_shift_rotate.md R440. -/
  | rolRmvCl (rm : Rm)
  /-- ROR r/m8, imm8 (C0 /1 imm8): 43_logical_shift_rotate.md R441. -/
  | rorRm8Imm8 (rm : Rm) (imm : Byte)
  /-- ROR r/mv, imm8 (C1 /1 imm8): 43_logical_shift_rotate.md R441. -/
  | rorRmvImm8 (rm : Rm) (imm : Byte)
  /-- ROR r/m8, 1 (D0 /1): 43_logical_shift_rotate.md R441. -/
  | rorRm8One (rm : Rm)
  /-- ROR r/mv, 1 (D1 /1): 43_logical_shift_rotate.md R441. -/
  | rorRmvOne (rm : Rm)
  /-- ROR r/m8, CL (D2 /1): 43_logical_shift_rotate.md R441. -/
  | rorRm8Cl (rm : Rm)
  /-- ROR r/mv, CL (D3 /1): 43_logical_shift_rotate.md R441. -/
  | rorRmvCl (rm : Rm)
  /-- RCL r/m8, imm8 (C0 /2 imm8): 43_logical_shift_rotate.md R442. -/
  | rclRm8Imm8 (rm : Rm) (imm : Byte)
  /-- RCL r/mv, imm8 (C1 /2 imm8): 43_logical_shift_rotate.md R442. -/
  | rclRmvImm8 (rm : Rm) (imm : Byte)
  /-- RCL r/m8, 1 (D0 /2): 43_logical_shift_rotate.md R442. -/
  | rclRm8One (rm : Rm)
  /-- RCL r/mv, 1 (D1 /2): 43_logical_shift_rotate.md R442. -/
  | rclRmvOne (rm : Rm)
  /-- RCL r/m8, CL (D2 /2): 43_logical_shift_rotate.md R442. -/
  | rclRm8Cl (rm : Rm)
  /-- RCL r/mv, CL (D3 /2): 43_logical_shift_rotate.md R442. -/
  | rclRmvCl (rm : Rm)
  /-- RCR r/m8, imm8 (C0 /3 imm8): 43_logical_shift_rotate.md R443. -/
  | rcrRm8Imm8 (rm : Rm) (imm : Byte)
  /-- RCR r/mv, imm8 (C1 /3 imm8): 43_logical_shift_rotate.md R443. -/
  | rcrRmvImm8 (rm : Rm) (imm : Byte)
  /-- RCR r/m8, 1 (D0 /3): 43_logical_shift_rotate.md R443. -/
  | rcrRm8One (rm : Rm)
  /-- RCR r/mv, 1 (D1 /3): 43_logical_shift_rotate.md R443. -/
  | rcrRmvOne (rm : Rm)
  /-- RCR r/m8, CL (D2 /3): 43_logical_shift_rotate.md R443. -/
  | rcrRm8Cl (rm : Rm)
  /-- RCR r/mv, CL (D3 /3): 43_logical_shift_rotate.md R443. -/
  | rcrRmvCl (rm : Rm)
  /-- SHL_SAL r/m8, imm8 (C0 /4 imm8): 43_logical_shift_rotate.md R431. -/
  | shlRm8Imm8 (rm : Rm) (imm : Byte)
  /-- SHL_SAL r/mv, imm8 (C1 /4 imm8): 43_logical_shift_rotate.md R431. -/
  | shlRmvImm8 (rm : Rm) (imm : Byte)
  /-- SHL_SAL r/m8, 1 (D0 /4): 43_logical_shift_rotate.md R431. -/
  | shlRm8One (rm : Rm)
  /-- SHL_SAL r/mv, 1 (D1 /4): 43_logical_shift_rotate.md R431. -/
  | shlRmvOne (rm : Rm)
  /-- SHL_SAL r/m8, CL (D2 /4): 43_logical_shift_rotate.md R431. -/
  | shlRm8Cl (rm : Rm)
  /-- SHL_SAL r/mv, CL (D3 /4): 43_logical_shift_rotate.md R431. -/
  | shlRmvCl (rm : Rm)
  /-- SHR r/m8, imm8 (C0 /5 imm8): 43_logical_shift_rotate.md R432. -/
  | shrRm8Imm8 (rm : Rm) (imm : Byte)
  /-- SHR r/mv, imm8 (C1 /5 imm8): 43_logical_shift_rotate.md R432. -/
  | shrRmvImm8 (rm : Rm) (imm : Byte)
  /-- SHR r/m8, 1 (D0 /5): 43_logical_shift_rotate.md R432. -/
  | shrRm8One (rm : Rm)
  /-- SHR r/mv, 1 (D1 /5): 43_logical_shift_rotate.md R432. -/
  | shrRmvOne (rm : Rm)
  /-- SHR r/m8, CL (D2 /5): 43_logical_shift_rotate.md R432. -/
  | shrRm8Cl (rm : Rm)
  /-- SHR r/mv, CL (D3 /5): 43_logical_shift_rotate.md R432. -/
  | shrRmvCl (rm : Rm)
  /-- SAR r/m8, imm8 (C0 /7 imm8): 43_logical_shift_rotate.md R433. -/
  | sarRm8Imm8 (rm : Rm) (imm : Byte)
  /-- SAR r/mv, imm8 (C1 /7 imm8): 43_logical_shift_rotate.md R433. -/
  | sarRmvImm8 (rm : Rm) (imm : Byte)
  /-- SAR r/m8, 1 (D0 /7): 43_logical_shift_rotate.md R433. -/
  | sarRm8One (rm : Rm)
  /-- SAR r/mv, 1 (D1 /7): 43_logical_shift_rotate.md R433. -/
  | sarRmvOne (rm : Rm)
  /-- SAR r/m8, CL (D2 /7): 43_logical_shift_rotate.md R433. -/
  | sarRm8Cl (rm : Rm)
  /-- SAR r/mv, CL (D3 /7): 43_logical_shift_rotate.md R433. -/
  | sarRmvCl (rm : Rm)
  /-- RET imm16 (near) (C2 imm16): 45_control_transfer.md R469. -/
  | retNearImm16 (imm : Word)
  /-- RET (near) (C3): 45_control_transfer.md R469. -/
  | retNear
  /-- LES rv, m16:v (C4 /r): 40_data_transfer.md R331. -/
  | les (r : Reg) (ea : EA)
  /-- LDS rv, m16:v (C5 /r): 40_data_transfer.md R331. -/
  | lds (r : Reg) (ea : EA)
  /-- MOV r/m8, imm8 (C6 /0 imm8): 40_data_transfer.md R304. -/
  | movRm8Imm8 (rm : Rm) (imm : Byte)
  /-- MOV r/mv, immv (C7 /0 immv): 40_data_transfer.md R304. -/
  | movRmvImmv (rm : Rm) (imm : Dword)
  /-- ENTER imm16, imm8 (C8 imm16): 46_high_level.md R501. -/
  | enter (size : Word) (level : Byte)
  /-- LEAVE (C9): 46_high_level.md R502. -/
  | leave
  /-- RET imm16 (far) (CA imm16): 45_control_transfer.md R479. -/
  | retFarImm16 (imm : Word)
  /-- RET (far) (CB): 45_control_transfer.md R479. -/
  | retFar
  /-- INT_3 (CC): 45_control_transfer.md R491. -/
  | int3
  /-- INT imm8 (CD imm8): 45_control_transfer.md R490. -/
  | intImm8 (n : Byte)
  /-- INTO (CE): 45_control_transfer.md R492. -/
  | into
  /-- IRET_IRETD (CF): 45_control_transfer.md R488. -/
  | iret
  /-- AAM (D4 imm8): 41_arithmetic.md R388. -/
  | aam (imm : Byte)
  /-- AAD (D5 imm8): 41_arithmetic.md R389. -/
  | aad (imm : Byte)
  /-- XLAT_XLATB (D7): 40_data_transfer.md R315. -/
  | xlat
  /-- ESC coprocessor opcode, r/m (D8+x /r): 48_processor_control.md R543. -/
  | esc (op : BitVec 3) (ext : BitVec 3) (rm : Rm)
  /-- LOOPNE_LOOPNZ rel8 (E0 rel8): 45_control_transfer.md R472. -/
  | loopne (rel : Byte)
  /-- LOOPE_LOOPZ rel8 (E1 rel8): 45_control_transfer.md R471. -/
  | loope (rel : Byte)
  /-- LOOP rel8 (E2 rel8): 45_control_transfer.md R470. -/
  | loop (rel : Byte)
  /-- JCXZ_JECXZ rel8 (E3 rel8): 45_control_transfer.md R473. -/
  | jcxz (rel : Byte)
  /-- IN AL, imm8 (E4 imm8): 40_data_transfer.md R325. -/
  | inAlImm8 (port : Byte)
  /-- IN eAX, imm8 (E5 imm8): 40_data_transfer.md R325. -/
  | inEaxImm8 (port : Byte)
  /-- OUT imm8, AL (E6 imm8): 40_data_transfer.md R326. -/
  | outImm8Al (port : Byte)
  /-- OUT imm8, eAX (E7 imm8): 40_data_transfer.md R326. -/
  | outImm8Eax (port : Byte)
  /-- CALL relv (E8 relv): 45_control_transfer.md R467. -/
  | callRelv (rel : Dword)
  /-- JMP relv (E9 relv): 45_control_transfer.md R465. -/
  | jmpRelv (rel : Dword)
  /-- JMP ptr16:v (EA offset): 45_control_transfer.md R477. -/
  | jmpPtr (off : Dword) (sel : Word)
  /-- JMP rel8 (EB rel8): 45_control_transfer.md R465. -/
  | jmpRel8 (rel : Byte)
  /-- IN AL, DX (EC): 40_data_transfer.md R325. -/
  | inAlDx
  /-- IN eAX, DX (ED): 40_data_transfer.md R325. -/
  | inEaxDx
  /-- OUT DX, AL (EE): 40_data_transfer.md R326. -/
  | outDxAl
  /-- OUT DX, eAX (EF): 40_data_transfer.md R326. -/
  | outDxEax
  /-- HLT (F4): 48_processor_control.md R541. -/
  | hlt
  /-- CMC (F5): 40_data_transfer.md R348. -/
  | cmc
  /-- TEST r/m8, imm8 (F6 /0 imm8): 43_logical_shift_rotate.md R425. -/
  | testRm8Imm8 (rm : Rm) (imm : Byte)
  /-- NOT r/m8 (F6 /2): 43_logical_shift_rotate.md R421. -/
  | notRm8 (rm : Rm)
  /-- NEG r/m8 (F6 /3): 41_arithmetic.md R370. -/
  | negRm8 (rm : Rm)
  /-- MUL r/m8 (F6 /4): 41_arithmetic.md R380. -/
  | mulRm8 (rm : Rm)
  /-- IMUL r/m8 (F6 /5): 41_arithmetic.md R381. -/
  | imulRm8 (rm : Rm)
  /-- DIV r/m8 (F6 /6): 41_arithmetic.md R385. -/
  | divRm8 (rm : Rm)
  /-- IDIV r/m8 (F6 /7): 41_arithmetic.md R386. -/
  | idivRm8 (rm : Rm)
  /-- TEST r/mv, immv (F7 /0 immv): 43_logical_shift_rotate.md R425. -/
  | testRmvImmv (rm : Rm) (imm : Dword)
  /-- NOT r/mv (F7 /2): 43_logical_shift_rotate.md R421. -/
  | notRmv (rm : Rm)
  /-- NEG r/mv (F7 /3): 41_arithmetic.md R370. -/
  | negRmv (rm : Rm)
  /-- MUL r/mv (F7 /4): 41_arithmetic.md R380. -/
  | mulRmv (rm : Rm)
  /-- IMUL r/mv (F7 /5): 41_arithmetic.md R381. -/
  | imulRmv (rm : Rm)
  /-- DIV r/mv (F7 /6): 41_arithmetic.md R385. -/
  | divRmv (rm : Rm)
  /-- IDIV r/mv (F7 /7): 41_arithmetic.md R386. -/
  | idivRmv (rm : Rm)
  /-- CLC (F8): 40_data_transfer.md R346. -/
  | clc
  /-- STC (F9): 40_data_transfer.md R349. -/
  | stc
  /-- CLI (FA): 45_control_transfer.md R493. -/
  | cli
  /-- STI (FB): 45_control_transfer.md R494. -/
  | sti
  /-- CLD (FC): 40_data_transfer.md R347. -/
  | cld
  /-- STD (FD): 40_data_transfer.md R350. -/
  | std
  /-- INC r/m8 (FE /0): 41_arithmetic.md R364. -/
  | incRm8 (rm : Rm)
  /-- DEC r/m8 (FE /1): 41_arithmetic.md R369. -/
  | decRm8 (rm : Rm)
  /-- INC r/mv (FF /0): 41_arithmetic.md R364. -/
  | incRmv (rm : Rm)
  /-- DEC r/mv (FF /1): 41_arithmetic.md R369. -/
  | decRmv (rm : Rm)
  /-- CALL r/mv (near indirect) (FF /2): 45_control_transfer.md R468. -/
  | callRmv (rm : Rm)
  /-- CALL m16:v (far indirect) (FF /3): 45_control_transfer.md R478. -/
  | callM (ea : EA)
  /-- JMP r/mv (near indirect) (FF /4): 45_control_transfer.md R466. -/
  | jmpRmv (rm : Rm)
  /-- JMP m16:v (far indirect) (FF /5): 45_control_transfer.md R477. -/
  | jmpM (ea : EA)
  /-- PUSH r/mv (FF /6): 40_data_transfer.md R308. -/
  | pushRmv (rm : Rm)
  /-- SLDT r/m16 (0F 00 /0): 47_protection_model.md R515. -/
  | sldt (rm : Rm)
  /-- STR r/m16 (0F 00 /1): 47_protection_model.md R516. -/
  | str (rm : Rm)
  /-- LLDT r/m16 (0F 00 /2): 47_protection_model.md R517. -/
  | lldt (rm : Rm)
  /-- LTR r/m16 (0F 00 /3): 47_protection_model.md R518. -/
  | ltr (rm : Rm)
  /-- VERR r/m16 (0F 00 /4): 47_protection_model.md R523. -/
  | verr (rm : Rm)
  /-- VERW r/m16 (0F 00 /5): 47_protection_model.md R524. -/
  | verw (rm : Rm)
  /-- SGDT m (0F 01 /0): 47_protection_model.md R511. -/
  | sgdt (ea : EA)
  /-- SIDT m (0F 01 /1): 47_protection_model.md R512. -/
  | sidt (ea : EA)
  /-- LGDT m (0F 01 /2): 47_protection_model.md R513. -/
  | lgdt (ea : EA)
  /-- LIDT m (0F 01 /3): 47_protection_model.md R514. -/
  | lidt (ea : EA)
  /-- SMSW r/m16 (0F 01 /4): 47_protection_model.md R527. -/
  | smsw (rm : Rm)
  /-- LMSW r/m16 (0F 01 /6): 47_protection_model.md R526. -/
  | lmsw (rm : Rm)
  /-- LAR rv, r/mv (0F 02 /r): 47_protection_model.md R521. -/
  | lar (r : Reg) (rm : Rm)
  /-- LSL rv, r/mv (0F 03 /r): 47_protection_model.md R522. -/
  | lsl (r : Reg) (rm : Rm)
  /-- CLTS (0F 06): 47_protection_model.md R528. -/
  | clts
  /-- MOV r32, CRn (0F 20 /r): 47_protection_model.md R530. -/
  | movR32Cr (r : Reg) (n : BitVec 3)
  /-- MOV r32, DRn (0F 21 /r): 47_protection_model.md R532. -/
  | movR32Dr (r : Reg) (n : BitVec 3)
  /-- MOV CRn, r32 (0F 22 /r): 47_protection_model.md R531. -/
  | movCrR32 (n : BitVec 3) (r : Reg)
  /-- MOV DRn, r32 (0F 23 /r): 47_protection_model.md R533. -/
  | movDrR32 (n : BitVec 3) (r : Reg)
  /-- MOV r32, TRn (0F 24 /r): 47_protection_model.md R534. -/
  | movR32Tr (r : Reg) (n : BitVec 3)
  /-- MOV TRn, r32 (0F 26 /r): 47_protection_model.md R535. -/
  | movTrR32 (n : BitVec 3) (r : Reg)
  /-- JO relv (0F 80 relv): 45_control_transfer.md R464. -/
  | joRelv (rel : Dword)
  /-- JNO relv (0F 81 relv): 45_control_transfer.md R464. -/
  | jnoRelv (rel : Dword)
  /-- JB_JNAE_JC relv (0F 82 relv): 45_control_transfer.md R464. -/
  | jbRelv (rel : Dword)
  /-- JAE_JNB_JNC relv (0F 83 relv): 45_control_transfer.md R464. -/
  | jaeRelv (rel : Dword)
  /-- JE_JZ relv (0F 84 relv): 45_control_transfer.md R464. -/
  | jeRelv (rel : Dword)
  /-- JNE_JNZ relv (0F 85 relv): 45_control_transfer.md R464. -/
  | jneRelv (rel : Dword)
  /-- JBE_JNA relv (0F 86 relv): 45_control_transfer.md R464. -/
  | jbeRelv (rel : Dword)
  /-- JA_JNBE relv (0F 87 relv): 45_control_transfer.md R464. -/
  | jaRelv (rel : Dword)
  /-- JS relv (0F 88 relv): 45_control_transfer.md R464. -/
  | jsRelv (rel : Dword)
  /-- JNS relv (0F 89 relv): 45_control_transfer.md R464. -/
  | jnsRelv (rel : Dword)
  /-- JP_JPE relv (0F 8A relv): 45_control_transfer.md R464. -/
  | jpRelv (rel : Dword)
  /-- JNP_JPO relv (0F 8B relv): 45_control_transfer.md R464. -/
  | jnpRelv (rel : Dword)
  /-- JL_JNGE relv (0F 8C relv): 45_control_transfer.md R464. -/
  | jlRelv (rel : Dword)
  /-- JGE_JNL relv (0F 8D relv): 45_control_transfer.md R464. -/
  | jgeRelv (rel : Dword)
  /-- JLE_JNG relv (0F 8E relv): 45_control_transfer.md R464. -/
  | jleRelv (rel : Dword)
  /-- JG_JNLE relv (0F 8F relv): 45_control_transfer.md R464. -/
  | jgRelv (rel : Dword)
  /-- SETO r/m8 (0F 90 /r): 45_control_transfer.md R462. -/
  | seto (rm : Rm)
  /-- SETNO r/m8 (0F 91 /r): 45_control_transfer.md R462. -/
  | setno (rm : Rm)
  /-- SETB_SETNAE_SETC r/m8 (0F 92 /r): 45_control_transfer.md R462. -/
  | setb (rm : Rm)
  /-- SETAE_SETNB_SETNC r/m8 (0F 93 /r): 45_control_transfer.md R462. -/
  | setae (rm : Rm)
  /-- SETE_SETZ r/m8 (0F 94 /r): 45_control_transfer.md R462. -/
  | sete (rm : Rm)
  /-- SETNE_SETNZ r/m8 (0F 95 /r): 45_control_transfer.md R462. -/
  | setne (rm : Rm)
  /-- SETBE_SETNA r/m8 (0F 96 /r): 45_control_transfer.md R462. -/
  | setbe (rm : Rm)
  /-- SETA_SETNBE r/m8 (0F 97 /r): 45_control_transfer.md R462. -/
  | seta (rm : Rm)
  /-- SETS r/m8 (0F 98 /r): 45_control_transfer.md R462. -/
  | sets (rm : Rm)
  /-- SETNS r/m8 (0F 99 /r): 45_control_transfer.md R462. -/
  | setns (rm : Rm)
  /-- SETP_SETPE r/m8 (0F 9A /r): 45_control_transfer.md R462. -/
  | setp (rm : Rm)
  /-- SETNP_SETPO r/m8 (0F 9B /r): 45_control_transfer.md R462. -/
  | setnp (rm : Rm)
  /-- SETL_SETNGE r/m8 (0F 9C /r): 45_control_transfer.md R462. -/
  | setl (rm : Rm)
  /-- SETGE_SETNL r/m8 (0F 9D /r): 45_control_transfer.md R462. -/
  | setge (rm : Rm)
  /-- SETLE_SETNG r/m8 (0F 9E /r): 45_control_transfer.md R462. -/
  | setle (rm : Rm)
  /-- SETG_SETNLE r/m8 (0F 9F /r): 45_control_transfer.md R462. -/
  | setg (rm : Rm)
  /-- BT r/mv, rv (0F A3 /r): 44_bit_manipulation.md R451. -/
  | btRmvRv (rm : Rm) (r : Reg)
  /-- BTS r/mv, rv (0F AB /r): 44_bit_manipulation.md R452. -/
  | btsRmvRv (rm : Rm) (r : Reg)
  /-- BTR r/mv, rv (0F B3 /r): 44_bit_manipulation.md R453. -/
  | btrRmvRv (rm : Rm) (r : Reg)
  /-- BTC r/mv, rv (0F BB /r): 44_bit_manipulation.md R454. -/
  | btcRmvRv (rm : Rm) (r : Reg)
  /-- BT r/mv, imm8 (0F BA /4 imm8): 44_bit_manipulation.md R451. -/
  | btRmvImm8 (rm : Rm) (imm : Byte)
  /-- BTS r/mv, imm8 (0F BA /5 imm8): 44_bit_manipulation.md R452. -/
  | btsRmvImm8 (rm : Rm) (imm : Byte)
  /-- BTR r/mv, imm8 (0F BA /6 imm8): 44_bit_manipulation.md R453. -/
  | btrRmvImm8 (rm : Rm) (imm : Byte)
  /-- BTC r/mv, imm8 (0F BA /7 imm8): 44_bit_manipulation.md R454. -/
  | btcRmvImm8 (rm : Rm) (imm : Byte)
  /-- SHLD r/mv, rv, imm8 (0F A4 /r imm8): 43_logical_shift_rotate.md R434. -/
  | shldImm8 (rm : Rm) (r : Reg) (imm : Byte)
  /-- SHLD r/mv, rv, CL (0F A5 /r): 43_logical_shift_rotate.md R434. -/
  | shldCl (rm : Rm) (r : Reg)
  /-- SHRD r/mv, rv, imm8 (0F AC /r imm8): 43_logical_shift_rotate.md R435. -/
  | shrdImm8 (rm : Rm) (r : Reg) (imm : Byte)
  /-- SHRD r/mv, rv, CL (0F AD /r): 43_logical_shift_rotate.md R435. -/
  | shrdCl (rm : Rm) (r : Reg)
  /-- IMUL rv, r/mv (0F AF /r): 41_arithmetic.md R382. -/
  | imulRvRmv (r : Reg) (rm : Rm)
  /-- LSS rv, m16:v (0F B2 /r): 40_data_transfer.md R331. -/
  | lss (r : Reg) (ea : EA)
  /-- LFS rv, m16:v (0F B4 /r): 40_data_transfer.md R331. -/
  | lfs (r : Reg) (ea : EA)
  /-- LGS rv, m16:v (0F B5 /r): 40_data_transfer.md R331. -/
  | lgs (r : Reg) (ea : EA)
  /-- MOVZX rv, r/m8 (0F B6 /r): 40_data_transfer.md R320. -/
  | movzxRvRm8 (r : Reg) (rm : Rm)
  /-- MOVZX r32, r/m16 (0F B7 /r): 40_data_transfer.md R320. -/
  | movzxR32Rm16 (r : Reg) (rm : Rm)
  /-- BSF rv, r/mv (0F BC /r): 44_bit_manipulation.md R455. -/
  | bsf (r : Reg) (rm : Rm)
  /-- BSR rv, r/mv (0F BD /r): 44_bit_manipulation.md R456. -/
  | bsr (r : Reg) (rm : Rm)
  /-- MOVSX rv, r/m8 (0F BE /r): 40_data_transfer.md R321. -/
  | movsxRvRm8 (r : Reg) (rm : Rm)
  /-- MOVSX r32, r/m16 (0F BF /r): 40_data_transfer.md R321. -/
  | movsxR32Rm16 (r : Reg) (rm : Rm)
  /-- ES: (prefix 26): 30_encoding.md R203. -/
  | segEs
  /-- CS: (prefix 2E): 30_encoding.md R203. -/
  | segCs
  /-- SS: (prefix 36): 30_encoding.md R203. -/
  | segSs
  /-- DS: (prefix 3E): 30_encoding.md R203. -/
  | segDs
  /-- FS: (prefix 64): 30_encoding.md R203. -/
  | segFs
  /-- GS: (prefix 65): 30_encoding.md R203. -/
  | segGs
  /-- operand_size (prefix 66): 30_encoding.md R206. -/
  | opSize
  /-- address_size (prefix 67): 30_encoding.md R207. -/
  | addrSize
  /-- LOCK (prefix F0): 48_processor_control.md R544. -/
  | lockPrefix
  /-- REPNE_REPNZ (prefix F2): 42_string.md R401. -/
  | repne
  /-- REP_REPE_REPZ (prefix F3): 42_string.md R401. -/
  | rep
deriving DecidableEq, Repr

end Sys2Proof
end

