-- ==== Sys2Proof/Decode.lean ====
section
/-! DEFINITION. The decoder, total on any bytes, and after it the encoder (30_encoding.md). -/

namespace Sys2Proof

/-- Why bytes are no instruction. `short`: they end before the instruction does. `invalid rest`: a reserved encoding,
#UD, found with `rest` not yet read (R245). `undocumented rest`: one of the eight undocumented encodings that the
spec refuses (93_implementation_defined.md U23). -/
inductive DecodeError where
  | short
  | invalid (rest : List Byte)
  | undocumented (rest : List Byte)
deriving DecidableEq, Repr

/-- A decoder reads some bytes and leaves the others. -/
abbrev Dec := StateT (List Byte) (Except DecodeError)

/-- One byte. -/
def byte : Dec Byte := fun bs =>
  match bs with
  | [] => .error .short
  | b :: rest => .ok (b, rest)

/-- A reserved encoding (30_encoding.md R245). -/
def invalid {α : Type} : Dec α := fun bs => .error (.invalid bs)

/-- An undocumented encoding (93_implementation_defined.md U23). -/
def undocumented {α : Type} : Dec α := fun bs => .error (.undocumented bs)

/-- Two bytes, low byte first (30_encoding.md R201). -/
def word : Dec Word := do
  let b0 ← byte
  let b1 ← byte
  pure (b1 ++ b0)

/-- Four bytes, low byte first (30_encoding.md R201). -/
def dword : Dec Dword := do
  let b0 ← byte
  let b1 ← byte
  let b2 ← byte
  let b3 ← byte
  pure (b3 ++ b2 ++ b1 ++ b0)

/-- The general register of an encoding number (30_encoding.md R210). -/
def Reg.ofBits (n : BitVec 3) : Reg :=
  match n.toNat with
  | 0 => .eax
  | 1 => .ecx
  | 2 => .edx
  | 3 => .ebx
  | 4 => .esp
  | 5 => .ebp
  | 6 => .esi
  | _ => .edi

/-- The encoding number of a general register (30_encoding.md R210). -/
def Reg.bits : Reg → BitVec 3
  | .eax => 0
  | .ecx => 1
  | .edx => 2
  | .ebx => 3
  | .esp => 4
  | .ebp => 5
  | .esi => 6
  | .edi => 7

/-- The segment register of an encoding number; 6 and 7 are reserved (30_encoding.md R210). -/
def Sreg.ofBits (n : BitVec 3) : Option Sreg :=
  match n.toNat with
  | 0 => some .es
  | 1 => some .cs
  | 2 => some .ss
  | 3 => some .ds
  | 4 => some .fs
  | 5 => some .gs
  | _ => none

/-- The encoding number of a segment register (30_encoding.md R210). -/
def Sreg.bits : Sreg → BitVec 3
  | .es => 0
  | .cs => 1
  | .ss => 2
  | .ds => 3
  | .fs => 4
  | .gs => 5

/-- The 16-bit address form of an rm field (30_encoding.md R212). -/
def Base16.ofBits (n : BitVec 3) : Base16 :=
  match n.toNat with
  | 0 => .bxsi
  | 1 => .bxdi
  | 2 => .bpsi
  | 3 => .bpdi
  | 4 => .si
  | 5 => .di
  | 6 => .bp
  | _ => .bx

/-- The rm field of a 16-bit address form (30_encoding.md R212). -/
def Base16.bits : Base16 → BitVec 3
  | .bxsi => 0
  | .bxdi => 1
  | .bpsi => 2
  | .bpdi => 3
  | .si => 4
  | .di => 5
  | .bp => 6
  | .bx => 7

/-- The mod field of a ModRM byte, bits 7..6 (30_encoding.md R211); also the scale field of a SIB byte (R214). -/
def modrmMod (m : Byte) : BitVec 2 := m.extractLsb' 6 2

/-- The reg field, bits 5..3 (30_encoding.md R211); also the index field of a SIB byte (R214). -/
def modrmReg (m : Byte) : BitVec 3 := m.extractLsb' 3 3

/-- The rm field, bits 2..0 (30_encoding.md R211); also the base field of a SIB byte (R214). -/
def modrmRm (m : Byte) : BitVec 3 := m.extractLsb' 0 3

/-- The displacement of a 16-bit address by its mod field: none, 8 bits sign-extended, or 16 bits
(30_encoding.md R212). -/
def disp16 (md : BitVec 2) : Dec Word :=
  match md.toNat with
  | 0 => pure 0
  | 1 => do
    let b ← byte
    pure (b.signExtend 16)
  | _ => word

/-- The displacement of a 32-bit address by its mod field: none, 8 bits sign-extended, or 32 bits
(30_encoding.md R213). -/
def disp32 (md : BitVec 2) : Dec Dword :=
  match md.toNat with
  | 0 => pure 0
  | 1 => do
    let b ← byte
    pure (b.signExtend 32)
  | _ => dword

/-- A memory operand under 16-bit addressing (30_encoding.md R212). -/
def ea16 (md : BitVec 2) (rm : BitVec 3) : Dec EA :=
  if md = 0 ∧ rm = 6 then do
    let d ← word
    pure (.mem16 none d)
  else do
    let d ← disp16 md
    pure (.mem16 (some (Base16.ofBits rm)) d)

/-- A memory operand under 32-bit addressing, with its SIB byte (30_encoding.md R213, R214). Index 100 means no index
whatever the scale (93_implementation_defined.md U22). -/
def ea32 (md : BitVec 2) (rm : BitVec 3) : Dec EA :=
  if rm = 4 then do
    let sib ← byte
    let index : Option (Reg × BitVec 2) :=
      if modrmReg sib = 4 then none else some (Reg.ofBits (modrmReg sib), modrmMod sib)
    if md = 0 ∧ modrmRm sib = 5 then do
      let d ← dword
      pure (.mem32 none index d)
    else do
      let d ← disp32 md
      pure (.mem32 (some (Reg.ofBits (modrmRm sib))) index d)
  else if md = 0 ∧ rm = 5 then do
    let d ← dword
    pure (.mem32 none none d)
  else do
    let d ← disp32 md
    pure (.mem32 (some (Reg.ofBits rm)) none d)

/-- The memory operand of a ModRM byte whose mod field is not 3, by the address size (30_encoding.md R211). -/
def eaOperand (as : Bool) (m : Byte) : Dec EA :=
  if as then ea32 (modrmMod m) (modrmRm m) else ea16 (modrmMod m) (modrmRm m)

/-- The r/m operand of a ModRM byte (30_encoding.md R211). -/
def rmOperand (as : Bool) (m : Byte) : Dec Rm :=
  if modrmMod m = 3 then pure (.reg (Reg.ofBits (modrmRm m)))
  else do
    let ea ← eaOperand as m
    pure (.mem ea)

/-- The memory-only operand of a ModRM byte; mod = 3 is #UD (30_encoding.md R246). -/
def memOperand (as : Bool) (m : Byte) : Dec EA :=
  if modrmMod m = 3 then invalid else eaOperand as m

/-- Operands r/m, r. -/
def rmReg (as : Bool) (f : Rm → Reg → Instr) : Dec Instr := do
  let m ← byte
  let rm ← rmOperand as m
  pure (f rm (Reg.ofBits (modrmReg m)))

/-- Operands r, r/m. -/
def regRm (as : Bool) (f : Reg → Rm → Instr) : Dec Instr := rmReg as (fun rm r => f r rm)

/-- Operands r, m. -/
def regEa (as : Bool) (f : Reg → EA → Instr) : Dec Instr := do
  let m ← byte
  let ea ← memOperand as m
  pure (f (Reg.ofBits (modrmReg m)) ea)

/-- Operand r/m with an unused reg field (SETcc). -/
def rmOnly (as : Bool) (f : Rm → Instr) : Dec Instr := do
  let m ← byte
  let rm ← rmOperand as m
  pure (f rm)

/-- An 8-bit immediate or displacement (30_encoding.md R217). -/
def imm8 (f : Byte → Instr) : Dec Instr := do
  let v ← byte
  pure (f v)

/-- A 16-bit immediate. -/
def imm16 (f : Word → Instr) : Dec Instr := do
  let v ← word
  pure (f v)

/-- 16 or 32 bits by a size attribute, zero-extended (30_encoding.md R217, R218). -/
def sized (size32 : Bool) : Dec Dword :=
  if size32 then dword
  else do
    let v ← word
    pure (v.setWidth 32)

/-- An immediate, offset or displacement of a size attribute. -/
def immSized (size32 : Bool) (f : Dword → Instr) : Dec Instr := do
  let v ← sized size32
  pure (f v)

/-- Operands r/m, r and then an immediate. -/
def rmRegThen {α : Type} (as : Bool) (imm : (α → Instr) → Dec Instr) (f : Rm → Reg → α → Instr) : Dec Instr := do
  let m ← byte
  let rm ← rmOperand as m
  imm (f rm (Reg.ofBits (modrmReg m)))

/-- Operands r, r/m and then an immediate. -/
def regRmThen {α : Type} (as : Bool) (imm : (α → Instr) → Dec Instr) (f : Reg → Rm → α → Instr) : Dec Instr :=
  rmRegThen as imm (fun rm r => f r rm)

/-- A far pointer ptr16:v, offset first (30_encoding.md R217). -/
def farPtr (os : Bool) (f : Dword → Word → Instr) : Dec Instr := do
  let off ← sized os
  let sel ← word
  pure (f off sel)

/-- ENTER's imm16 then imm8 (30_encoding.md R217). -/
def enterOperands (f : Word → Byte → Instr) : Dec Instr := do
  let size ← word
  let level ← byte
  pure (f size level)

/-- MOV r32 from a special register: reg is its number, rm the register, mod ignored (30_encoding.md R246). -/
def specialRead (f : Reg → BitVec 3 → Instr) : Dec Instr := do
  let m ← byte
  pure (f (Reg.ofBits (modrmRm m)) (modrmReg m))

/-- MOV to a special register from r32 (30_encoding.md R246). -/
def specialWrite (f : BitVec 3 → Reg → Instr) : Dec Instr := do
  let m ← byte
  pure (f (modrmReg m) (Reg.ofBits (modrmRm m)))

/-- MOV r/m16, sreg; numbers 6 and 7 are reserved (30_encoding.md R210). -/
def rmSreg (as : Bool) (f : Rm → Sreg → Instr) : Dec Instr := do
  let m ← byte
  match Sreg.ofBits (modrmReg m) with
  | none => invalid
  | some sr => do
    let rm ← rmOperand as m
    pure (f rm sr)

/-- MOV sreg, r/m16; CS, 6 and 7 are #UD (30_encoding.md R210). -/
def sregRm (as : Bool) (f : Sreg → Rm → Instr) : Dec Instr := do
  let m ← byte
  match Sreg.ofBits (modrmReg m) with
  | none => invalid
  | some .cs => invalid
  | some sr => do
    let rm ← rmOperand as m
    pure (f sr rm)

/-- ESC: the low opcode bits, the reg field and the r/m operand (48_processor_control.md R543). -/
def escOperands (as : Bool) (op : BitVec 3) : Dec Instr := do
  let m ← byte
  let rm ← rmOperand as m
  pure (.esc op (modrmReg m) rm)

/-- A group member with an r/m operand. -/
def groupRm (as : Bool) (m : Byte) (f : Rm → Instr) : Dec Instr := do
  let rm ← rmOperand as m
  pure (f rm)

/-- A group member with a memory operand. -/
def groupEa (as : Bool) (m : Byte) (f : EA → Instr) : Dec Instr := do
  let ea ← memOperand as m
  pure (f ea)

/-- A group member with an r/m operand and an immediate. -/
def groupRmThen {α : Type} (as : Bool) (m : Byte) (imm : (α → Instr) → Dec Instr) (f : Rm → α → Instr) :
    Dec Instr := do
  let rm ← rmOperand as m
  imm (f rm)

/-! The opcode maps. A section without generated code: the run-time representation stops at 244 constructors with
fields, and Instr has more; the kernel evaluates these definitions as any other. -/

noncomputable section

/-- The extension group of opcode 80H, selected by ModRM.reg (30_encoding.md R230, R232). -/
def group80 (as : Bool) : Dec Instr := do
  let m ← byte
  match (modrmReg m).toNat with
  | 0 => groupRmThen as m imm8 .addRm8Imm8
  | 1 => groupRmThen as m imm8 .orRm8Imm8
  | 2 => groupRmThen as m imm8 .adcRm8Imm8
  | 3 => groupRmThen as m imm8 .sbbRm8Imm8
  | 4 => groupRmThen as m imm8 .andRm8Imm8
  | 5 => groupRmThen as m imm8 .subRm8Imm8
  | 6 => groupRmThen as m imm8 .xorRm8Imm8
  | _ => groupRmThen as m imm8 .cmpRm8Imm8

/-- The extension group of opcode 81H, selected by ModRM.reg (30_encoding.md R230, R232). -/
def group81 (os as : Bool) : Dec Instr := do
  let m ← byte
  match (modrmReg m).toNat with
  | 0 => groupRmThen as m (immSized os) .addRmvImmv
  | 1 => groupRmThen as m (immSized os) .orRmvImmv
  | 2 => groupRmThen as m (immSized os) .adcRmvImmv
  | 3 => groupRmThen as m (immSized os) .sbbRmvImmv
  | 4 => groupRmThen as m (immSized os) .andRmvImmv
  | 5 => groupRmThen as m (immSized os) .subRmvImmv
  | 6 => groupRmThen as m (immSized os) .xorRmvImmv
  | _ => groupRmThen as m (immSized os) .cmpRmvImmv

/-- The extension group of opcode 83H, selected by ModRM.reg (30_encoding.md R230, R232). -/
def group83 (as : Bool) : Dec Instr := do
  let m ← byte
  match (modrmReg m).toNat with
  | 0 => groupRmThen as m imm8 .addRmvSimm8
  | 1 => groupRmThen as m imm8 .orRmvSimm8
  | 2 => groupRmThen as m imm8 .adcRmvSimm8
  | 3 => groupRmThen as m imm8 .sbbRmvSimm8
  | 4 => groupRmThen as m imm8 .andRmvSimm8
  | 5 => groupRmThen as m imm8 .subRmvSimm8
  | 6 => groupRmThen as m imm8 .xorRmvSimm8
  | _ => groupRmThen as m imm8 .cmpRmvSimm8

/-- The extension group of opcode 8FH, selected by ModRM.reg (30_encoding.md R230, R232). -/
def group8F (as : Bool) : Dec Instr := do
  let m ← byte
  match (modrmReg m).toNat with
  | 0 => groupRm as m .popRmv
  | 1 => invalid
  | 2 => invalid
  | 3 => invalid
  | 4 => invalid
  | 5 => invalid
  | 6 => invalid
  | _ => invalid

/-- The extension group of opcode C0H, selected by ModRM.reg (30_encoding.md R230, R232). -/
def groupC0 (as : Bool) : Dec Instr := do
  let m ← byte
  match (modrmReg m).toNat with
  | 0 => groupRmThen as m imm8 .rolRm8Imm8
  | 1 => groupRmThen as m imm8 .rorRm8Imm8
  | 2 => groupRmThen as m imm8 .rclRm8Imm8
  | 3 => groupRmThen as m imm8 .rcrRm8Imm8
  | 4 => groupRmThen as m imm8 .shlRm8Imm8
  | 5 => groupRmThen as m imm8 .shrRm8Imm8
  | 6 => undocumented
  | _ => groupRmThen as m imm8 .sarRm8Imm8

/-- The extension group of opcode C1H, selected by ModRM.reg (30_encoding.md R230, R232). -/
def groupC1 (as : Bool) : Dec Instr := do
  let m ← byte
  match (modrmReg m).toNat with
  | 0 => groupRmThen as m imm8 .rolRmvImm8
  | 1 => groupRmThen as m imm8 .rorRmvImm8
  | 2 => groupRmThen as m imm8 .rclRmvImm8
  | 3 => groupRmThen as m imm8 .rcrRmvImm8
  | 4 => groupRmThen as m imm8 .shlRmvImm8
  | 5 => groupRmThen as m imm8 .shrRmvImm8
  | 6 => undocumented
  | _ => groupRmThen as m imm8 .sarRmvImm8

/-- The extension group of opcode C6H, selected by ModRM.reg (30_encoding.md R230, R232). -/
def groupC6 (as : Bool) : Dec Instr := do
  let m ← byte
  match (modrmReg m).toNat with
  | 0 => groupRmThen as m imm8 .movRm8Imm8
  | 1 => invalid
  | 2 => invalid
  | 3 => invalid
  | 4 => invalid
  | 5 => invalid
  | 6 => invalid
  | _ => invalid

/-- The extension group of opcode C7H, selected by ModRM.reg (30_encoding.md R230, R232). -/
def groupC7 (os as : Bool) : Dec Instr := do
  let m ← byte
  match (modrmReg m).toNat with
  | 0 => groupRmThen as m (immSized os) .movRmvImmv
  | 1 => invalid
  | 2 => invalid
  | 3 => invalid
  | 4 => invalid
  | 5 => invalid
  | 6 => invalid
  | _ => invalid

/-- The extension group of opcode D0H, selected by ModRM.reg (30_encoding.md R230, R232). -/
def groupD0 (as : Bool) : Dec Instr := do
  let m ← byte
  match (modrmReg m).toNat with
  | 0 => groupRm as m .rolRm8One
  | 1 => groupRm as m .rorRm8One
  | 2 => groupRm as m .rclRm8One
  | 3 => groupRm as m .rcrRm8One
  | 4 => groupRm as m .shlRm8One
  | 5 => groupRm as m .shrRm8One
  | 6 => undocumented
  | _ => groupRm as m .sarRm8One

/-- The extension group of opcode D1H, selected by ModRM.reg (30_encoding.md R230, R232). -/
def groupD1 (as : Bool) : Dec Instr := do
  let m ← byte
  match (modrmReg m).toNat with
  | 0 => groupRm as m .rolRmvOne
  | 1 => groupRm as m .rorRmvOne
  | 2 => groupRm as m .rclRmvOne
  | 3 => groupRm as m .rcrRmvOne
  | 4 => groupRm as m .shlRmvOne
  | 5 => groupRm as m .shrRmvOne
  | 6 => undocumented
  | _ => groupRm as m .sarRmvOne

/-- The extension group of opcode D2H, selected by ModRM.reg (30_encoding.md R230, R232). -/
def groupD2 (as : Bool) : Dec Instr := do
  let m ← byte
  match (modrmReg m).toNat with
  | 0 => groupRm as m .rolRm8Cl
  | 1 => groupRm as m .rorRm8Cl
  | 2 => groupRm as m .rclRm8Cl
  | 3 => groupRm as m .rcrRm8Cl
  | 4 => groupRm as m .shlRm8Cl
  | 5 => groupRm as m .shrRm8Cl
  | 6 => undocumented
  | _ => groupRm as m .sarRm8Cl

/-- The extension group of opcode D3H, selected by ModRM.reg (30_encoding.md R230, R232). -/
def groupD3 (as : Bool) : Dec Instr := do
  let m ← byte
  match (modrmReg m).toNat with
  | 0 => groupRm as m .rolRmvCl
  | 1 => groupRm as m .rorRmvCl
  | 2 => groupRm as m .rclRmvCl
  | 3 => groupRm as m .rcrRmvCl
  | 4 => groupRm as m .shlRmvCl
  | 5 => groupRm as m .shrRmvCl
  | 6 => undocumented
  | _ => groupRm as m .sarRmvCl

/-- The extension group of opcode F6H, selected by ModRM.reg (30_encoding.md R230, R232). -/
def groupF6 (as : Bool) : Dec Instr := do
  let m ← byte
  match (modrmReg m).toNat with
  | 0 => groupRmThen as m imm8 .testRm8Imm8
  | 1 => undocumented
  | 2 => groupRm as m .notRm8
  | 3 => groupRm as m .negRm8
  | 4 => groupRm as m .mulRm8
  | 5 => groupRm as m .imulRm8
  | 6 => groupRm as m .divRm8
  | _ => groupRm as m .idivRm8

/-- The extension group of opcode F7H, selected by ModRM.reg (30_encoding.md R230, R232). -/
def groupF7 (os as : Bool) : Dec Instr := do
  let m ← byte
  match (modrmReg m).toNat with
  | 0 => groupRmThen as m (immSized os) .testRmvImmv
  | 1 => undocumented
  | 2 => groupRm as m .notRmv
  | 3 => groupRm as m .negRmv
  | 4 => groupRm as m .mulRmv
  | 5 => groupRm as m .imulRmv
  | 6 => groupRm as m .divRmv
  | _ => groupRm as m .idivRmv

/-- The extension group of opcode FEH, selected by ModRM.reg (30_encoding.md R230, R232). -/
def groupFE (as : Bool) : Dec Instr := do
  let m ← byte
  match (modrmReg m).toNat with
  | 0 => groupRm as m .incRm8
  | 1 => groupRm as m .decRm8
  | 2 => invalid
  | 3 => invalid
  | 4 => invalid
  | 5 => invalid
  | 6 => invalid
  | _ => invalid

/-- The extension group of opcode FFH, selected by ModRM.reg (30_encoding.md R230, R232). -/
def groupFF (as : Bool) : Dec Instr := do
  let m ← byte
  match (modrmReg m).toNat with
  | 0 => groupRm as m .incRmv
  | 1 => groupRm as m .decRmv
  | 2 => groupRm as m .callRmv
  | 3 => groupEa as m .callM
  | 4 => groupRm as m .jmpRmv
  | 5 => groupEa as m .jmpM
  | 6 => groupRm as m .pushRmv
  | _ => invalid

/-- The extension group of opcode 0F 00H, selected by ModRM.reg (30_encoding.md R231). -/
def group0F00 (as : Bool) : Dec Instr := do
  let m ← byte
  match (modrmReg m).toNat with
  | 0 => groupRm as m .sldt
  | 1 => groupRm as m .str
  | 2 => groupRm as m .lldt
  | 3 => groupRm as m .ltr
  | 4 => groupRm as m .verr
  | 5 => groupRm as m .verw
  | 6 => invalid
  | _ => invalid

/-- The extension group of opcode 0F 01H, selected by ModRM.reg (30_encoding.md R231). -/
def group0F01 (as : Bool) : Dec Instr := do
  let m ← byte
  match (modrmReg m).toNat with
  | 0 => groupEa as m .sgdt
  | 1 => groupEa as m .sidt
  | 2 => groupEa as m .lgdt
  | 3 => groupEa as m .lidt
  | 4 => groupRm as m .smsw
  | 5 => invalid
  | 6 => groupRm as m .lmsw
  | _ => invalid

/-- The extension group of opcode 0F BAH, selected by ModRM.reg (30_encoding.md R231). -/
def group0FBA (as : Bool) : Dec Instr := do
  let m ← byte
  match (modrmReg m).toNat with
  | 0 => invalid
  | 1 => invalid
  | 2 => invalid
  | 3 => invalid
  | 4 => groupRmThen as m imm8 .btRmvImm8
  | 5 => groupRmThen as m imm8 .btsRmvImm8
  | 6 => groupRmThen as m imm8 .btrRmvImm8
  | _ => groupRmThen as m imm8 .btcRmvImm8

/-- The opcodes 0F 00H to 0F 0FH, by their low digit (30_encoding.md R231). -/
def row0F0 (_os as : Bool) (lo : Nat) : Dec Instr :=
  match lo with
  | 0 => group0F00 as
  | 1 => group0F01 as
  | 2 => regRm as .lar
  | 3 => regRm as .lsl
  | 6 => pure .clts
  | 7 => undocumented
  | _ => invalid

/-- The opcodes 0F 20H to 0F 2FH, by their low digit (30_encoding.md R231). -/
def row0F2 (_os _as : Bool) (lo : Nat) : Dec Instr :=
  match lo with
  | 0 => specialRead .movR32Cr
  | 1 => specialRead .movR32Dr
  | 2 => specialWrite .movCrR32
  | 3 => specialWrite .movDrR32
  | 4 => specialRead .movR32Tr
  | 6 => specialWrite .movTrR32
  | _ => invalid

/-- The opcodes 0F 80H to 0F 8FH, by their low digit (30_encoding.md R231). -/
def row0F8 (os _as : Bool) (lo : Nat) : Dec Instr :=
  match lo with
  | 0 => immSized os .joRelv
  | 1 => immSized os .jnoRelv
  | 2 => immSized os .jbRelv
  | 3 => immSized os .jaeRelv
  | 4 => immSized os .jeRelv
  | 5 => immSized os .jneRelv
  | 6 => immSized os .jbeRelv
  | 7 => immSized os .jaRelv
  | 8 => immSized os .jsRelv
  | 9 => immSized os .jnsRelv
  | 10 => immSized os .jpRelv
  | 11 => immSized os .jnpRelv
  | 12 => immSized os .jlRelv
  | 13 => immSized os .jgeRelv
  | 14 => immSized os .jleRelv
  | 15 => immSized os .jgRelv
  | _ => invalid

/-- The opcodes 0F 90H to 0F 9FH, by their low digit (30_encoding.md R231). -/
def row0F9 (_os as : Bool) (lo : Nat) : Dec Instr :=
  match lo with
  | 0 => rmOnly as .seto
  | 1 => rmOnly as .setno
  | 2 => rmOnly as .setb
  | 3 => rmOnly as .setae
  | 4 => rmOnly as .sete
  | 5 => rmOnly as .setne
  | 6 => rmOnly as .setbe
  | 7 => rmOnly as .seta
  | 8 => rmOnly as .sets
  | 9 => rmOnly as .setns
  | 10 => rmOnly as .setp
  | 11 => rmOnly as .setnp
  | 12 => rmOnly as .setl
  | 13 => rmOnly as .setge
  | 14 => rmOnly as .setle
  | 15 => rmOnly as .setg
  | _ => invalid

/-- The opcodes 0F A0H to 0F AFH, by their low digit (30_encoding.md R231). -/
def row0FA (_os as : Bool) (lo : Nat) : Dec Instr :=
  match lo with
  | 0 => pure .pushFs
  | 1 => pure .popFs
  | 3 => rmReg as .btRmvRv
  | 4 => rmRegThen as imm8 .shldImm8
  | 5 => rmReg as .shldCl
  | 6 => undocumented
  | 7 => undocumented
  | 8 => pure .pushGs
  | 9 => pure .popGs
  | 11 => rmReg as .btsRmvRv
  | 12 => rmRegThen as imm8 .shrdImm8
  | 13 => rmReg as .shrdCl
  | 15 => regRm as .imulRvRmv
  | _ => invalid

/-- The opcodes 0F B0H to 0F BFH, by their low digit (30_encoding.md R231). -/
def row0FB (_os as : Bool) (lo : Nat) : Dec Instr :=
  match lo with
  | 2 => regEa as .lss
  | 3 => rmReg as .btrRmvRv
  | 4 => regEa as .lfs
  | 5 => regEa as .lgs
  | 6 => regRm as .movzxRvRm8
  | 7 => regRm as .movzxR32Rm16
  | 10 => group0FBA as
  | 11 => rmReg as .btcRmvRv
  | 12 => regRm as .bsf
  | 13 => regRm as .bsr
  | 14 => regRm as .movsxRvRm8
  | 15 => regRm as .movsxR32Rm16
  | _ => invalid

/-- The second opcode byte after 0FH (30_encoding.md R231); every value not listed is reserved (R245). -/
def twoByte (os as : Bool) (hi lo : Nat) : Dec Instr :=
  match hi with
  | 0 => row0F0 os as lo
  | 2 => row0F2 os as lo
  | 8 => row0F8 os as lo
  | 9 => row0F9 os as lo
  | 10 => row0FA os as lo
  | 11 => row0FB os as lo
  | _ => invalid

/-- The opcodes 00H to 0FH, by their low digit (30_encoding.md R230). -/
def row0 (os as : Bool) (lo : Nat) : Dec Instr :=
  match lo with
  | 0 => rmReg as .addRm8R8
  | 1 => rmReg as .addRmvRv
  | 2 => regRm as .addR8Rm8
  | 3 => regRm as .addRvRmv
  | 4 => imm8 .addAlImm8
  | 5 => immSized os .addEaxImmv
  | 6 => pure .pushEs
  | 7 => pure .popEs
  | 8 => rmReg as .orRm8R8
  | 9 => rmReg as .orRmvRv
  | 10 => regRm as .orR8Rm8
  | 11 => regRm as .orRvRmv
  | 12 => imm8 .orAlImm8
  | 13 => immSized os .orEaxImmv
  | 14 => pure .pushCs
  | _ => do { let b ← byte; twoByte os as (b.toNat / 16) (b.toNat % 16) }

/-- The opcodes 10H to 1FH, by their low digit (30_encoding.md R230). -/
def row1 (os as : Bool) (lo : Nat) : Dec Instr :=
  match lo with
  | 0 => rmReg as .adcRm8R8
  | 1 => rmReg as .adcRmvRv
  | 2 => regRm as .adcR8Rm8
  | 3 => regRm as .adcRvRmv
  | 4 => imm8 .adcAlImm8
  | 5 => immSized os .adcEaxImmv
  | 6 => pure .pushSs
  | 7 => pure .popSs
  | 8 => rmReg as .sbbRm8R8
  | 9 => rmReg as .sbbRmvRv
  | 10 => regRm as .sbbR8Rm8
  | 11 => regRm as .sbbRvRmv
  | 12 => imm8 .sbbAlImm8
  | 13 => immSized os .sbbEaxImmv
  | 14 => pure .pushDs
  | _ => pure .popDs

/-- The opcodes 20H to 2FH, by their low digit (30_encoding.md R230). -/
def row2 (os as : Bool) (lo : Nat) : Dec Instr :=
  match lo with
  | 0 => rmReg as .andRm8R8
  | 1 => rmReg as .andRmvRv
  | 2 => regRm as .andR8Rm8
  | 3 => regRm as .andRvRmv
  | 4 => imm8 .andAlImm8
  | 5 => immSized os .andEaxImmv
  | 6 => pure .segEs
  | 7 => pure .daa
  | 8 => rmReg as .subRm8R8
  | 9 => rmReg as .subRmvRv
  | 10 => regRm as .subR8Rm8
  | 11 => regRm as .subRvRmv
  | 12 => imm8 .subAlImm8
  | 13 => immSized os .subEaxImmv
  | 14 => pure .segCs
  | _ => pure .das

/-- The opcodes 30H to 3FH, by their low digit (30_encoding.md R230). -/
def row3 (os as : Bool) (lo : Nat) : Dec Instr :=
  match lo with
  | 0 => rmReg as .xorRm8R8
  | 1 => rmReg as .xorRmvRv
  | 2 => regRm as .xorR8Rm8
  | 3 => regRm as .xorRvRmv
  | 4 => imm8 .xorAlImm8
  | 5 => immSized os .xorEaxImmv
  | 6 => pure .segSs
  | 7 => pure .aaa
  | 8 => rmReg as .cmpRm8R8
  | 9 => rmReg as .cmpRmvRv
  | 10 => regRm as .cmpR8Rm8
  | 11 => regRm as .cmpRvRmv
  | 12 => imm8 .cmpAlImm8
  | 13 => immSized os .cmpEaxImmv
  | 14 => pure .segDs
  | _ => pure .aas

/-- The opcodes 40H to 4FH, by their low digit (30_encoding.md R230). -/
def row4 (_os _as : Bool) (lo : Nat) : Dec Instr :=
  match lo with
  | 0 => pure (.incRv .eax)
  | 1 => pure (.incRv .ecx)
  | 2 => pure (.incRv .edx)
  | 3 => pure (.incRv .ebx)
  | 4 => pure (.incRv .esp)
  | 5 => pure (.incRv .ebp)
  | 6 => pure (.incRv .esi)
  | 7 => pure (.incRv .edi)
  | 8 => pure (.decRv .eax)
  | 9 => pure (.decRv .ecx)
  | 10 => pure (.decRv .edx)
  | 11 => pure (.decRv .ebx)
  | 12 => pure (.decRv .esp)
  | 13 => pure (.decRv .ebp)
  | 14 => pure (.decRv .esi)
  | _ => pure (.decRv .edi)

/-- The opcodes 50H to 5FH, by their low digit (30_encoding.md R230). -/
def row5 (_os _as : Bool) (lo : Nat) : Dec Instr :=
  match lo with
  | 0 => pure (.pushRv .eax)
  | 1 => pure (.pushRv .ecx)
  | 2 => pure (.pushRv .edx)
  | 3 => pure (.pushRv .ebx)
  | 4 => pure (.pushRv .esp)
  | 5 => pure (.pushRv .ebp)
  | 6 => pure (.pushRv .esi)
  | 7 => pure (.pushRv .edi)
  | 8 => pure (.popRv .eax)
  | 9 => pure (.popRv .ecx)
  | 10 => pure (.popRv .edx)
  | 11 => pure (.popRv .ebx)
  | 12 => pure (.popRv .esp)
  | 13 => pure (.popRv .ebp)
  | 14 => pure (.popRv .esi)
  | _ => pure (.popRv .edi)

/-- The opcodes 60H to 6FH, by their low digit (30_encoding.md R230). -/
def row6 (os as : Bool) (lo : Nat) : Dec Instr :=
  match lo with
  | 0 => pure .pusha
  | 1 => pure .popa
  | 2 => regEa as .bound
  | 3 => rmReg as .arpl
  | 4 => pure .segFs
  | 5 => pure .segGs
  | 6 => pure .opSize
  | 7 => pure .addrSize
  | 8 => immSized os .pushImmv
  | 9 => regRmThen as (immSized os) .imulRvRmvImmv
  | 10 => imm8 .pushSimm8
  | 11 => regRmThen as imm8 .imulRvRmvSimm8
  | 12 => pure .insb
  | 13 => pure .insv
  | 14 => pure .outsb
  | _ => pure .outsv

/-- The opcodes 70H to 7FH, by their low digit (30_encoding.md R230). -/
def row7 (_os _as : Bool) (lo : Nat) : Dec Instr :=
  match lo with
  | 0 => imm8 .joRel8
  | 1 => imm8 .jnoRel8
  | 2 => imm8 .jbRel8
  | 3 => imm8 .jaeRel8
  | 4 => imm8 .jeRel8
  | 5 => imm8 .jneRel8
  | 6 => imm8 .jbeRel8
  | 7 => imm8 .jaRel8
  | 8 => imm8 .jsRel8
  | 9 => imm8 .jnsRel8
  | 10 => imm8 .jpRel8
  | 11 => imm8 .jnpRel8
  | 12 => imm8 .jlRel8
  | 13 => imm8 .jgeRel8
  | 14 => imm8 .jleRel8
  | _ => imm8 .jgRel8

/-- The opcodes 80H to 8FH, by their low digit (30_encoding.md R230). -/
def row8 (os as : Bool) (lo : Nat) : Dec Instr :=
  match lo with
  | 0 => group80 as
  | 1 => group81 os as
  | 2 => undocumented
  | 3 => group83 as
  | 4 => rmReg as .testRm8R8
  | 5 => rmReg as .testRmvRv
  | 6 => rmReg as .xchgRm8R8
  | 7 => rmReg as .xchgRmvRv
  | 8 => rmReg as .movRm8R8
  | 9 => rmReg as .movRmvRv
  | 10 => regRm as .movR8Rm8
  | 11 => regRm as .movRvRmv
  | 12 => rmSreg as .movRm16Sreg
  | 13 => regEa as .lea
  | 14 => sregRm as .movSregRm16
  | _ => group8F as

/-- The opcodes 90H to 9FH, by their low digit (30_encoding.md R230). -/
def row9 (os _as : Bool) (lo : Nat) : Dec Instr :=
  match lo with
  | 0 => pure .nop
  | 1 => pure (.xchgEaxRv .ecx)
  | 2 => pure (.xchgEaxRv .edx)
  | 3 => pure (.xchgEaxRv .ebx)
  | 4 => pure (.xchgEaxRv .esp)
  | 5 => pure (.xchgEaxRv .ebp)
  | 6 => pure (.xchgEaxRv .esi)
  | 7 => pure (.xchgEaxRv .edi)
  | 8 => pure .cbw
  | 9 => pure .cwd
  | 10 => farPtr os .callPtr
  | 11 => pure .wait
  | 12 => pure .pushf
  | 13 => pure .popf
  | 14 => pure .sahf
  | _ => pure .lahf

/-- The opcodes A0H to AFH, by their low digit (30_encoding.md R230). -/
def rowA (os as : Bool) (lo : Nat) : Dec Instr :=
  match lo with
  | 0 => immSized as .movAlMoffs8
  | 1 => immSized as .movEaxMoffsv
  | 2 => immSized as .movMoffs8Al
  | 3 => immSized as .movMoffsvEax
  | 4 => pure .movsb
  | 5 => pure .movsv
  | 6 => pure .cmpsb
  | 7 => pure .cmpsv
  | 8 => imm8 .testAlImm8
  | 9 => immSized os .testEaxImmv
  | 10 => pure .stosb
  | 11 => pure .stosv
  | 12 => pure .lodsb
  | 13 => pure .lodsv
  | 14 => pure .scasb
  | _ => pure .scasv

/-- The opcodes B0H to BFH, by their low digit (30_encoding.md R230). -/
def rowB (os _as : Bool) (lo : Nat) : Dec Instr :=
  match lo with
  | 0 => imm8 (.movR8Imm8 .eax)
  | 1 => imm8 (.movR8Imm8 .ecx)
  | 2 => imm8 (.movR8Imm8 .edx)
  | 3 => imm8 (.movR8Imm8 .ebx)
  | 4 => imm8 (.movR8Imm8 .esp)
  | 5 => imm8 (.movR8Imm8 .ebp)
  | 6 => imm8 (.movR8Imm8 .esi)
  | 7 => imm8 (.movR8Imm8 .edi)
  | 8 => immSized os (.movRvImmv .eax)
  | 9 => immSized os (.movRvImmv .ecx)
  | 10 => immSized os (.movRvImmv .edx)
  | 11 => immSized os (.movRvImmv .ebx)
  | 12 => immSized os (.movRvImmv .esp)
  | 13 => immSized os (.movRvImmv .ebp)
  | 14 => immSized os (.movRvImmv .esi)
  | _ => immSized os (.movRvImmv .edi)

/-- The opcodes C0H to CFH, by their low digit (30_encoding.md R230). -/
def rowC (os as : Bool) (lo : Nat) : Dec Instr :=
  match lo with
  | 0 => groupC0 as
  | 1 => groupC1 as
  | 2 => imm16 .retNearImm16
  | 3 => pure .retNear
  | 4 => regEa as .les
  | 5 => regEa as .lds
  | 6 => groupC6 as
  | 7 => groupC7 os as
  | 8 => enterOperands .enter
  | 9 => pure .leave
  | 10 => imm16 .retFarImm16
  | 11 => pure .retFar
  | 12 => pure .int3
  | 13 => imm8 .intImm8
  | 14 => pure .into
  | _ => pure .iret

/-- The opcodes D0H to DFH, by their low digit (30_encoding.md R230). -/
def rowD (_os as : Bool) (lo : Nat) : Dec Instr :=
  match lo with
  | 0 => groupD0 as
  | 1 => groupD1 as
  | 2 => groupD2 as
  | 3 => groupD3 as
  | 4 => imm8 .aam
  | 5 => imm8 .aad
  | 6 => undocumented
  | 7 => pure .xlat
  | 8 => escOperands as 0
  | 9 => escOperands as 1
  | 10 => escOperands as 2
  | 11 => escOperands as 3
  | 12 => escOperands as 4
  | 13 => escOperands as 5
  | 14 => escOperands as 6
  | _ => escOperands as 7

/-- The opcodes E0H to EFH, by their low digit (30_encoding.md R230). -/
def rowE (os _as : Bool) (lo : Nat) : Dec Instr :=
  match lo with
  | 0 => imm8 .loopne
  | 1 => imm8 .loope
  | 2 => imm8 .loop
  | 3 => imm8 .jcxz
  | 4 => imm8 .inAlImm8
  | 5 => imm8 .inEaxImm8
  | 6 => imm8 .outImm8Al
  | 7 => imm8 .outImm8Eax
  | 8 => immSized os .callRelv
  | 9 => immSized os .jmpRelv
  | 10 => farPtr os .jmpPtr
  | 11 => imm8 .jmpRel8
  | 12 => pure .inAlDx
  | 13 => pure .inEaxDx
  | 14 => pure .outDxAl
  | _ => pure .outDxEax

/-- The opcodes F0H to FFH, by their low digit (30_encoding.md R230). -/
def rowF (os as : Bool) (lo : Nat) : Dec Instr :=
  match lo with
  | 0 => pure .lockPrefix
  | 1 => undocumented
  | 2 => pure .repne
  | 3 => pure .rep
  | 4 => pure .hlt
  | 5 => pure .cmc
  | 6 => groupF6 as
  | 7 => groupF7 os as
  | 8 => pure .clc
  | 9 => pure .stc
  | 10 => pure .cli
  | 11 => pure .sti
  | 12 => pure .cld
  | 13 => pure .std
  | 14 => groupFE as
  | _ => groupFF as

/-- The first opcode byte (30_encoding.md R230). -/
def oneByte (os as : Bool) (hi lo : Nat) : Dec Instr :=
  match hi with
  | 0 => row0 os as lo
  | 1 => row1 os as lo
  | 2 => row2 os as lo
  | 3 => row3 os as lo
  | 4 => row4 os as lo
  | 5 => row5 os as lo
  | 6 => row6 os as lo
  | 7 => row7 os as lo
  | 8 => row8 os as lo
  | 9 => row9 os as lo
  | 10 => rowA os as lo
  | 11 => rowB os as lo
  | 12 => rowC os as lo
  | 13 => rowD os as lo
  | 14 => rowE os as lo
  | _ => rowF os as lo

/-- Decode one table row (an instruction without its prefixes, or one prefix byte) under operand size `os` and
address size `as` (30_encoding.md R240): the instruction and the bytes after it. -/
def decode (os as : Bool) : Dec Instr := do
  let b ← byte
  oneByte os as (b.toNat / 16) (b.toNat % 16)

end

/-- Whether a LOCK prefix is legal before this form: the opcodes of 30_encoding.md R204 with a memory
destination. -/
def Instr.lockable : Instr → Bool
  | .addRm8R8 (.mem _) _ | .addRmvRv (.mem _) _ | .addRm8Imm8 (.mem _) _ => true
  | .addRmvImmv (.mem _) _ | .addRmvSimm8 (.mem _) _ | .orRm8R8 (.mem _) _ => true
  | .orRmvRv (.mem _) _ | .orRm8Imm8 (.mem _) _ | .orRmvImmv (.mem _) _ => true
  | .orRmvSimm8 (.mem _) _ | .adcRm8R8 (.mem _) _ | .adcRmvRv (.mem _) _ => true
  | .adcRm8Imm8 (.mem _) _ | .adcRmvImmv (.mem _) _ | .adcRmvSimm8 (.mem _) _ => true
  | .sbbRm8R8 (.mem _) _ | .sbbRmvRv (.mem _) _ | .sbbRm8Imm8 (.mem _) _ => true
  | .sbbRmvImmv (.mem _) _ | .sbbRmvSimm8 (.mem _) _ | .andRm8R8 (.mem _) _ => true
  | .andRmvRv (.mem _) _ | .andRm8Imm8 (.mem _) _ | .andRmvImmv (.mem _) _ => true
  | .andRmvSimm8 (.mem _) _ | .subRm8R8 (.mem _) _ | .subRmvRv (.mem _) _ => true
  | .subRm8Imm8 (.mem _) _ | .subRmvImmv (.mem _) _ | .subRmvSimm8 (.mem _) _ => true
  | .xorRm8R8 (.mem _) _ | .xorRmvRv (.mem _) _ | .xorRm8Imm8 (.mem _) _ => true
  | .xorRmvImmv (.mem _) _ | .xorRmvSimm8 (.mem _) _ | .btsRmvRv (.mem _) _ => true
  | .btsRmvImm8 (.mem _) _ | .btrRmvRv (.mem _) _ | .btrRmvImm8 (.mem _) _ => true
  | .btcRmvRv (.mem _) _ | .btcRmvImm8 (.mem _) _ | .xchgRm8R8 (.mem _) _ => true
  | .xchgRmvRv (.mem _) _ | .notRm8 (.mem _) | .notRmv (.mem _) => true
  | .negRm8 (.mem _) | .negRmv (.mem _) | .incRm8 (.mem _) => true
  | .incRmv (.mem _) | .decRm8 (.mem _) | .decRmv (.mem _) => true
  | _ => false

/-- Whether this is one of the eleven prefix bytes (30_encoding.md R202). -/
def Instr.isPrefix : Instr → Bool
  | .segEs | .segCs | .segSs | .segDs | .segFs | .segGs => true
  | .opSize | .addrSize | .lockPrefix | .repne | .rep => true
  | _ => false

/-! The encoder. -/

/-- The ModRM byte of its three fields (30_encoding.md R211); also the SIB byte (R214). -/
def modrmByte (md : BitVec 2) (reg rm : BitVec 3) : Byte := md ++ reg ++ rm

/-- An opcode with a register number in its low three bits (30_encoding.md R210). -/
def opcodePlus (op : Byte) (n : BitVec 3) : Byte := op ||| n.setWidth 8

/-- A word, low byte first. -/
def encWord (v : Word) : List Byte := [v.extractLsb' 0 8, v.extractLsb' 8 8]

/-- A doubleword, low byte first. -/
def encDword (v : Dword) : List Byte :=
  [v.extractLsb' 0 8, v.extractLsb' 8 8, v.extractLsb' 16 8, v.extractLsb' 24 8]

/-- 16 or 32 bits by a size attribute. -/
def encSized (size32 : Bool) (v : Dword) : List Byte :=
  if size32 then encDword v else encWord (v.setWidth 16)

/-- ModRM, SIB and displacement of a memory operand with reg field `g`; the displacement always in its long form
(30_encoding.md R212 to R214). -/
def encEa (g : BitVec 3) : EA → List Byte
  | .mem16 none d => modrmByte 0 g 6 :: encWord d
  | .mem16 (some b) d => modrmByte 2 g b.bits :: encWord d
  | .mem32 none none d => modrmByte 0 g 5 :: encDword d
  | .mem32 none (some (i, ss)) d => modrmByte 0 g 4 :: modrmByte ss i.bits 5 :: encDword d
  | .mem32 (some b) (some (i, ss)) d => modrmByte 2 g 4 :: modrmByte ss i.bits b.bits :: encDword d
  | .mem32 (some b) none d =>
    if b = .esp then modrmByte 2 g 4 :: modrmByte 0 4 4 :: encDword d
    else modrmByte 2 g b.bits :: encDword d

/-- ModRM, SIB and displacement of an r/m operand with reg field `g` (30_encoding.md R211). -/
def encRm (g : BitVec 3) : Rm → List Byte
  | .reg r => [modrmByte 3 g r.bits]
  | .mem ea => encEa g ea

/-- The bytes of a well-formed instruction under operand size `os` and address size `as`, written from the same
tables (30_encoding.md R230 to R232). -/
def encode (os as : Bool) : Instr → List Byte
  | .addRm8R8 rm r => 0x00 :: encRm r.bits rm
  | .addRmvRv rm r => 0x01 :: encRm r.bits rm
  | .addR8Rm8 r rm => 0x02 :: encRm r.bits rm
  | .addRvRmv r rm => 0x03 :: encRm r.bits rm
  | .addAlImm8 imm => 0x04 :: [imm]
  | .addEaxImmv imm => 0x05 :: encSized os imm
  | .addRm8Imm8 rm imm => 0x80 :: (encRm 0 rm ++ [imm])
  | .addRmvImmv rm imm => 0x81 :: (encRm 0 rm ++ encSized os imm)
  | .addRmvSimm8 rm imm => 0x83 :: (encRm 0 rm ++ [imm])
  | .orRm8R8 rm r => 0x08 :: encRm r.bits rm
  | .orRmvRv rm r => 0x09 :: encRm r.bits rm
  | .orR8Rm8 r rm => 0x0A :: encRm r.bits rm
  | .orRvRmv r rm => 0x0B :: encRm r.bits rm
  | .orAlImm8 imm => 0x0C :: [imm]
  | .orEaxImmv imm => 0x0D :: encSized os imm
  | .orRm8Imm8 rm imm => 0x80 :: (encRm 1 rm ++ [imm])
  | .orRmvImmv rm imm => 0x81 :: (encRm 1 rm ++ encSized os imm)
  | .orRmvSimm8 rm imm => 0x83 :: (encRm 1 rm ++ [imm])
  | .adcRm8R8 rm r => 0x10 :: encRm r.bits rm
  | .adcRmvRv rm r => 0x11 :: encRm r.bits rm
  | .adcR8Rm8 r rm => 0x12 :: encRm r.bits rm
  | .adcRvRmv r rm => 0x13 :: encRm r.bits rm
  | .adcAlImm8 imm => 0x14 :: [imm]
  | .adcEaxImmv imm => 0x15 :: encSized os imm
  | .adcRm8Imm8 rm imm => 0x80 :: (encRm 2 rm ++ [imm])
  | .adcRmvImmv rm imm => 0x81 :: (encRm 2 rm ++ encSized os imm)
  | .adcRmvSimm8 rm imm => 0x83 :: (encRm 2 rm ++ [imm])
  | .sbbRm8R8 rm r => 0x18 :: encRm r.bits rm
  | .sbbRmvRv rm r => 0x19 :: encRm r.bits rm
  | .sbbR8Rm8 r rm => 0x1A :: encRm r.bits rm
  | .sbbRvRmv r rm => 0x1B :: encRm r.bits rm
  | .sbbAlImm8 imm => 0x1C :: [imm]
  | .sbbEaxImmv imm => 0x1D :: encSized os imm
  | .sbbRm8Imm8 rm imm => 0x80 :: (encRm 3 rm ++ [imm])
  | .sbbRmvImmv rm imm => 0x81 :: (encRm 3 rm ++ encSized os imm)
  | .sbbRmvSimm8 rm imm => 0x83 :: (encRm 3 rm ++ [imm])
  | .andRm8R8 rm r => 0x20 :: encRm r.bits rm
  | .andRmvRv rm r => 0x21 :: encRm r.bits rm
  | .andR8Rm8 r rm => 0x22 :: encRm r.bits rm
  | .andRvRmv r rm => 0x23 :: encRm r.bits rm
  | .andAlImm8 imm => 0x24 :: [imm]
  | .andEaxImmv imm => 0x25 :: encSized os imm
  | .andRm8Imm8 rm imm => 0x80 :: (encRm 4 rm ++ [imm])
  | .andRmvImmv rm imm => 0x81 :: (encRm 4 rm ++ encSized os imm)
  | .andRmvSimm8 rm imm => 0x83 :: (encRm 4 rm ++ [imm])
  | .subRm8R8 rm r => 0x28 :: encRm r.bits rm
  | .subRmvRv rm r => 0x29 :: encRm r.bits rm
  | .subR8Rm8 r rm => 0x2A :: encRm r.bits rm
  | .subRvRmv r rm => 0x2B :: encRm r.bits rm
  | .subAlImm8 imm => 0x2C :: [imm]
  | .subEaxImmv imm => 0x2D :: encSized os imm
  | .subRm8Imm8 rm imm => 0x80 :: (encRm 5 rm ++ [imm])
  | .subRmvImmv rm imm => 0x81 :: (encRm 5 rm ++ encSized os imm)
  | .subRmvSimm8 rm imm => 0x83 :: (encRm 5 rm ++ [imm])
  | .xorRm8R8 rm r => 0x30 :: encRm r.bits rm
  | .xorRmvRv rm r => 0x31 :: encRm r.bits rm
  | .xorR8Rm8 r rm => 0x32 :: encRm r.bits rm
  | .xorRvRmv r rm => 0x33 :: encRm r.bits rm
  | .xorAlImm8 imm => 0x34 :: [imm]
  | .xorEaxImmv imm => 0x35 :: encSized os imm
  | .xorRm8Imm8 rm imm => 0x80 :: (encRm 6 rm ++ [imm])
  | .xorRmvImmv rm imm => 0x81 :: (encRm 6 rm ++ encSized os imm)
  | .xorRmvSimm8 rm imm => 0x83 :: (encRm 6 rm ++ [imm])
  | .cmpRm8R8 rm r => 0x38 :: encRm r.bits rm
  | .cmpRmvRv rm r => 0x39 :: encRm r.bits rm
  | .cmpR8Rm8 r rm => 0x3A :: encRm r.bits rm
  | .cmpRvRmv r rm => 0x3B :: encRm r.bits rm
  | .cmpAlImm8 imm => 0x3C :: [imm]
  | .cmpEaxImmv imm => 0x3D :: encSized os imm
  | .cmpRm8Imm8 rm imm => 0x80 :: (encRm 7 rm ++ [imm])
  | .cmpRmvImmv rm imm => 0x81 :: (encRm 7 rm ++ encSized os imm)
  | .cmpRmvSimm8 rm imm => 0x83 :: (encRm 7 rm ++ [imm])
  | .pushEs => 0x06 :: []
  | .pushCs => 0x0E :: []
  | .pushSs => 0x16 :: []
  | .pushDs => 0x1E :: []
  | .pushFs => 0x0F :: 0xA0 :: []
  | .pushGs => 0x0F :: 0xA8 :: []
  | .popEs => 0x07 :: []
  | .popSs => 0x17 :: []
  | .popDs => 0x1F :: []
  | .popFs => 0x0F :: 0xA1 :: []
  | .popGs => 0x0F :: 0xA9 :: []
  | .daa => 0x27 :: []
  | .das => 0x2F :: []
  | .aaa => 0x37 :: []
  | .aas => 0x3F :: []
  | .incRv r => opcodePlus 0x40 r.bits :: []
  | .decRv r => opcodePlus 0x48 r.bits :: []
  | .pushRv r => opcodePlus 0x50 r.bits :: []
  | .popRv r => opcodePlus 0x58 r.bits :: []
  | .pusha => 0x60 :: []
  | .popa => 0x61 :: []
  | .bound r ea => 0x62 :: encEa r.bits ea
  | .arpl rm r => 0x63 :: encRm r.bits rm
  | .pushImmv imm => 0x68 :: encSized os imm
  | .pushSimm8 imm => 0x6A :: [imm]
  | .imulRvRmvImmv r rm imm => 0x69 :: (encRm r.bits rm ++ encSized os imm)
  | .imulRvRmvSimm8 r rm imm => 0x6B :: (encRm r.bits rm ++ [imm])
  | .insb => 0x6C :: []
  | .insv => 0x6D :: []
  | .outsb => 0x6E :: []
  | .outsv => 0x6F :: []
  | .joRel8 rel => 0x70 :: [rel]
  | .jnoRel8 rel => 0x71 :: [rel]
  | .jbRel8 rel => 0x72 :: [rel]
  | .jaeRel8 rel => 0x73 :: [rel]
  | .jeRel8 rel => 0x74 :: [rel]
  | .jneRel8 rel => 0x75 :: [rel]
  | .jbeRel8 rel => 0x76 :: [rel]
  | .jaRel8 rel => 0x77 :: [rel]
  | .jsRel8 rel => 0x78 :: [rel]
  | .jnsRel8 rel => 0x79 :: [rel]
  | .jpRel8 rel => 0x7A :: [rel]
  | .jnpRel8 rel => 0x7B :: [rel]
  | .jlRel8 rel => 0x7C :: [rel]
  | .jgeRel8 rel => 0x7D :: [rel]
  | .jleRel8 rel => 0x7E :: [rel]
  | .jgRel8 rel => 0x7F :: [rel]
  | .testRm8R8 rm r => 0x84 :: encRm r.bits rm
  | .testRmvRv rm r => 0x85 :: encRm r.bits rm
  | .xchgRm8R8 rm r => 0x86 :: encRm r.bits rm
  | .xchgRmvRv rm r => 0x87 :: encRm r.bits rm
  | .movRm8R8 rm r => 0x88 :: encRm r.bits rm
  | .movRmvRv rm r => 0x89 :: encRm r.bits rm
  | .movR8Rm8 r rm => 0x8A :: encRm r.bits rm
  | .movRvRmv r rm => 0x8B :: encRm r.bits rm
  | .movRm16Sreg rm sr => 0x8C :: encRm sr.bits rm
  | .lea r ea => 0x8D :: encEa r.bits ea
  | .movSregRm16 sr rm => 0x8E :: encRm sr.bits rm
  | .popRmv rm => 0x8F :: encRm 0 rm
  | .nop => 0x90 :: []
  | .xchgEaxRv r => opcodePlus 0x90 r.bits :: []
  | .cbw => 0x98 :: []
  | .cwd => 0x99 :: []
  | .callPtr off sel => 0x9A :: (encSized os off ++ encWord sel)
  | .wait => 0x9B :: []
  | .pushf => 0x9C :: []
  | .popf => 0x9D :: []
  | .sahf => 0x9E :: []
  | .lahf => 0x9F :: []
  | .movAlMoffs8 off => 0xA0 :: encSized as off
  | .movEaxMoffsv off => 0xA1 :: encSized as off
  | .movMoffs8Al off => 0xA2 :: encSized as off
  | .movMoffsvEax off => 0xA3 :: encSized as off
  | .movsb => 0xA4 :: []
  | .movsv => 0xA5 :: []
  | .cmpsb => 0xA6 :: []
  | .cmpsv => 0xA7 :: []
  | .stosb => 0xAA :: []
  | .stosv => 0xAB :: []
  | .lodsb => 0xAC :: []
  | .lodsv => 0xAD :: []
  | .scasb => 0xAE :: []
  | .scasv => 0xAF :: []
  | .testAlImm8 imm => 0xA8 :: [imm]
  | .testEaxImmv imm => 0xA9 :: encSized os imm
  | .movR8Imm8 r imm => opcodePlus 0xB0 r.bits :: [imm]
  | .movRvImmv r imm => opcodePlus 0xB8 r.bits :: encSized os imm
  | .rolRm8Imm8 rm imm => 0xC0 :: (encRm 0 rm ++ [imm])
  | .rolRmvImm8 rm imm => 0xC1 :: (encRm 0 rm ++ [imm])
  | .rolRm8One rm => 0xD0 :: encRm 0 rm
  | .rolRmvOne rm => 0xD1 :: encRm 0 rm
  | .rolRm8Cl rm => 0xD2 :: encRm 0 rm
  | .rolRmvCl rm => 0xD3 :: encRm 0 rm
  | .rorRm8Imm8 rm imm => 0xC0 :: (encRm 1 rm ++ [imm])
  | .rorRmvImm8 rm imm => 0xC1 :: (encRm 1 rm ++ [imm])
  | .rorRm8One rm => 0xD0 :: encRm 1 rm
  | .rorRmvOne rm => 0xD1 :: encRm 1 rm
  | .rorRm8Cl rm => 0xD2 :: encRm 1 rm
  | .rorRmvCl rm => 0xD3 :: encRm 1 rm
  | .rclRm8Imm8 rm imm => 0xC0 :: (encRm 2 rm ++ [imm])
  | .rclRmvImm8 rm imm => 0xC1 :: (encRm 2 rm ++ [imm])
  | .rclRm8One rm => 0xD0 :: encRm 2 rm
  | .rclRmvOne rm => 0xD1 :: encRm 2 rm
  | .rclRm8Cl rm => 0xD2 :: encRm 2 rm
  | .rclRmvCl rm => 0xD3 :: encRm 2 rm
  | .rcrRm8Imm8 rm imm => 0xC0 :: (encRm 3 rm ++ [imm])
  | .rcrRmvImm8 rm imm => 0xC1 :: (encRm 3 rm ++ [imm])
  | .rcrRm8One rm => 0xD0 :: encRm 3 rm
  | .rcrRmvOne rm => 0xD1 :: encRm 3 rm
  | .rcrRm8Cl rm => 0xD2 :: encRm 3 rm
  | .rcrRmvCl rm => 0xD3 :: encRm 3 rm
  | .shlRm8Imm8 rm imm => 0xC0 :: (encRm 4 rm ++ [imm])
  | .shlRmvImm8 rm imm => 0xC1 :: (encRm 4 rm ++ [imm])
  | .shlRm8One rm => 0xD0 :: encRm 4 rm
  | .shlRmvOne rm => 0xD1 :: encRm 4 rm
  | .shlRm8Cl rm => 0xD2 :: encRm 4 rm
  | .shlRmvCl rm => 0xD3 :: encRm 4 rm
  | .shrRm8Imm8 rm imm => 0xC0 :: (encRm 5 rm ++ [imm])
  | .shrRmvImm8 rm imm => 0xC1 :: (encRm 5 rm ++ [imm])
  | .shrRm8One rm => 0xD0 :: encRm 5 rm
  | .shrRmvOne rm => 0xD1 :: encRm 5 rm
  | .shrRm8Cl rm => 0xD2 :: encRm 5 rm
  | .shrRmvCl rm => 0xD3 :: encRm 5 rm
  | .sarRm8Imm8 rm imm => 0xC0 :: (encRm 7 rm ++ [imm])
  | .sarRmvImm8 rm imm => 0xC1 :: (encRm 7 rm ++ [imm])
  | .sarRm8One rm => 0xD0 :: encRm 7 rm
  | .sarRmvOne rm => 0xD1 :: encRm 7 rm
  | .sarRm8Cl rm => 0xD2 :: encRm 7 rm
  | .sarRmvCl rm => 0xD3 :: encRm 7 rm
  | .retNearImm16 imm => 0xC2 :: encWord imm
  | .retNear => 0xC3 :: []
  | .les r ea => 0xC4 :: encEa r.bits ea
  | .lds r ea => 0xC5 :: encEa r.bits ea
  | .movRm8Imm8 rm imm => 0xC6 :: (encRm 0 rm ++ [imm])
  | .movRmvImmv rm imm => 0xC7 :: (encRm 0 rm ++ encSized os imm)
  | .enter size level => 0xC8 :: (encWord size ++ [level])
  | .leave => 0xC9 :: []
  | .retFarImm16 imm => 0xCA :: encWord imm
  | .retFar => 0xCB :: []
  | .int3 => 0xCC :: []
  | .intImm8 n => 0xCD :: [n]
  | .into => 0xCE :: []
  | .iret => 0xCF :: []
  | .aam imm => 0xD4 :: [imm]
  | .aad imm => 0xD5 :: [imm]
  | .xlat => 0xD7 :: []
  | .esc op ext rm => opcodePlus 0xD8 op :: encRm ext rm
  | .loopne rel => 0xE0 :: [rel]
  | .loope rel => 0xE1 :: [rel]
  | .loop rel => 0xE2 :: [rel]
  | .jcxz rel => 0xE3 :: [rel]
  | .inAlImm8 port => 0xE4 :: [port]
  | .inEaxImm8 port => 0xE5 :: [port]
  | .outImm8Al port => 0xE6 :: [port]
  | .outImm8Eax port => 0xE7 :: [port]
  | .callRelv rel => 0xE8 :: encSized os rel
  | .jmpRelv rel => 0xE9 :: encSized os rel
  | .jmpPtr off sel => 0xEA :: (encSized os off ++ encWord sel)
  | .jmpRel8 rel => 0xEB :: [rel]
  | .inAlDx => 0xEC :: []
  | .inEaxDx => 0xED :: []
  | .outDxAl => 0xEE :: []
  | .outDxEax => 0xEF :: []
  | .hlt => 0xF4 :: []
  | .cmc => 0xF5 :: []
  | .testRm8Imm8 rm imm => 0xF6 :: (encRm 0 rm ++ [imm])
  | .notRm8 rm => 0xF6 :: encRm 2 rm
  | .negRm8 rm => 0xF6 :: encRm 3 rm
  | .mulRm8 rm => 0xF6 :: encRm 4 rm
  | .imulRm8 rm => 0xF6 :: encRm 5 rm
  | .divRm8 rm => 0xF6 :: encRm 6 rm
  | .idivRm8 rm => 0xF6 :: encRm 7 rm
  | .testRmvImmv rm imm => 0xF7 :: (encRm 0 rm ++ encSized os imm)
  | .notRmv rm => 0xF7 :: encRm 2 rm
  | .negRmv rm => 0xF7 :: encRm 3 rm
  | .mulRmv rm => 0xF7 :: encRm 4 rm
  | .imulRmv rm => 0xF7 :: encRm 5 rm
  | .divRmv rm => 0xF7 :: encRm 6 rm
  | .idivRmv rm => 0xF7 :: encRm 7 rm
  | .clc => 0xF8 :: []
  | .stc => 0xF9 :: []
  | .cli => 0xFA :: []
  | .sti => 0xFB :: []
  | .cld => 0xFC :: []
  | .std => 0xFD :: []
  | .incRm8 rm => 0xFE :: encRm 0 rm
  | .decRm8 rm => 0xFE :: encRm 1 rm
  | .incRmv rm => 0xFF :: encRm 0 rm
  | .decRmv rm => 0xFF :: encRm 1 rm
  | .callRmv rm => 0xFF :: encRm 2 rm
  | .callM ea => 0xFF :: encEa 3 ea
  | .jmpRmv rm => 0xFF :: encRm 4 rm
  | .jmpM ea => 0xFF :: encEa 5 ea
  | .pushRmv rm => 0xFF :: encRm 6 rm
  | .sldt rm => 0x0F :: 0x00 :: encRm 0 rm
  | .str rm => 0x0F :: 0x00 :: encRm 1 rm
  | .lldt rm => 0x0F :: 0x00 :: encRm 2 rm
  | .ltr rm => 0x0F :: 0x00 :: encRm 3 rm
  | .verr rm => 0x0F :: 0x00 :: encRm 4 rm
  | .verw rm => 0x0F :: 0x00 :: encRm 5 rm
  | .sgdt ea => 0x0F :: 0x01 :: encEa 0 ea
  | .sidt ea => 0x0F :: 0x01 :: encEa 1 ea
  | .lgdt ea => 0x0F :: 0x01 :: encEa 2 ea
  | .lidt ea => 0x0F :: 0x01 :: encEa 3 ea
  | .smsw rm => 0x0F :: 0x01 :: encRm 4 rm
  | .lmsw rm => 0x0F :: 0x01 :: encRm 6 rm
  | .lar r rm => 0x0F :: 0x02 :: encRm r.bits rm
  | .lsl r rm => 0x0F :: 0x03 :: encRm r.bits rm
  | .clts => 0x0F :: 0x06 :: []
  | .movR32Cr r n => 0x0F :: 0x20 :: [modrmByte 3 n r.bits]
  | .movR32Dr r n => 0x0F :: 0x21 :: [modrmByte 3 n r.bits]
  | .movCrR32 n r => 0x0F :: 0x22 :: [modrmByte 3 n r.bits]
  | .movDrR32 n r => 0x0F :: 0x23 :: [modrmByte 3 n r.bits]
  | .movR32Tr r n => 0x0F :: 0x24 :: [modrmByte 3 n r.bits]
  | .movTrR32 n r => 0x0F :: 0x26 :: [modrmByte 3 n r.bits]
  | .joRelv rel => 0x0F :: 0x80 :: encSized os rel
  | .jnoRelv rel => 0x0F :: 0x81 :: encSized os rel
  | .jbRelv rel => 0x0F :: 0x82 :: encSized os rel
  | .jaeRelv rel => 0x0F :: 0x83 :: encSized os rel
  | .jeRelv rel => 0x0F :: 0x84 :: encSized os rel
  | .jneRelv rel => 0x0F :: 0x85 :: encSized os rel
  | .jbeRelv rel => 0x0F :: 0x86 :: encSized os rel
  | .jaRelv rel => 0x0F :: 0x87 :: encSized os rel
  | .jsRelv rel => 0x0F :: 0x88 :: encSized os rel
  | .jnsRelv rel => 0x0F :: 0x89 :: encSized os rel
  | .jpRelv rel => 0x0F :: 0x8A :: encSized os rel
  | .jnpRelv rel => 0x0F :: 0x8B :: encSized os rel
  | .jlRelv rel => 0x0F :: 0x8C :: encSized os rel
  | .jgeRelv rel => 0x0F :: 0x8D :: encSized os rel
  | .jleRelv rel => 0x0F :: 0x8E :: encSized os rel
  | .jgRelv rel => 0x0F :: 0x8F :: encSized os rel
  | .seto rm => 0x0F :: 0x90 :: encRm 0 rm
  | .setno rm => 0x0F :: 0x91 :: encRm 0 rm
  | .setb rm => 0x0F :: 0x92 :: encRm 0 rm
  | .setae rm => 0x0F :: 0x93 :: encRm 0 rm
  | .sete rm => 0x0F :: 0x94 :: encRm 0 rm
  | .setne rm => 0x0F :: 0x95 :: encRm 0 rm
  | .setbe rm => 0x0F :: 0x96 :: encRm 0 rm
  | .seta rm => 0x0F :: 0x97 :: encRm 0 rm
  | .sets rm => 0x0F :: 0x98 :: encRm 0 rm
  | .setns rm => 0x0F :: 0x99 :: encRm 0 rm
  | .setp rm => 0x0F :: 0x9A :: encRm 0 rm
  | .setnp rm => 0x0F :: 0x9B :: encRm 0 rm
  | .setl rm => 0x0F :: 0x9C :: encRm 0 rm
  | .setge rm => 0x0F :: 0x9D :: encRm 0 rm
  | .setle rm => 0x0F :: 0x9E :: encRm 0 rm
  | .setg rm => 0x0F :: 0x9F :: encRm 0 rm
  | .btRmvRv rm r => 0x0F :: 0xA3 :: encRm r.bits rm
  | .btsRmvRv rm r => 0x0F :: 0xAB :: encRm r.bits rm
  | .btrRmvRv rm r => 0x0F :: 0xB3 :: encRm r.bits rm
  | .btcRmvRv rm r => 0x0F :: 0xBB :: encRm r.bits rm
  | .btRmvImm8 rm imm => 0x0F :: 0xBA :: (encRm 4 rm ++ [imm])
  | .btsRmvImm8 rm imm => 0x0F :: 0xBA :: (encRm 5 rm ++ [imm])
  | .btrRmvImm8 rm imm => 0x0F :: 0xBA :: (encRm 6 rm ++ [imm])
  | .btcRmvImm8 rm imm => 0x0F :: 0xBA :: (encRm 7 rm ++ [imm])
  | .shldImm8 rm r imm => 0x0F :: 0xA4 :: (encRm r.bits rm ++ [imm])
  | .shldCl rm r => 0x0F :: 0xA5 :: encRm r.bits rm
  | .shrdImm8 rm r imm => 0x0F :: 0xAC :: (encRm r.bits rm ++ [imm])
  | .shrdCl rm r => 0x0F :: 0xAD :: encRm r.bits rm
  | .imulRvRmv r rm => 0x0F :: 0xAF :: encRm r.bits rm
  | .lss r ea => 0x0F :: 0xB2 :: encEa r.bits ea
  | .lfs r ea => 0x0F :: 0xB4 :: encEa r.bits ea
  | .lgs r ea => 0x0F :: 0xB5 :: encEa r.bits ea
  | .movzxRvRm8 r rm => 0x0F :: 0xB6 :: encRm r.bits rm
  | .movzxR32Rm16 r rm => 0x0F :: 0xB7 :: encRm r.bits rm
  | .bsf r rm => 0x0F :: 0xBC :: encRm r.bits rm
  | .bsr r rm => 0x0F :: 0xBD :: encRm r.bits rm
  | .movsxRvRm8 r rm => 0x0F :: 0xBE :: encRm r.bits rm
  | .movsxR32Rm16 r rm => 0x0F :: 0xBF :: encRm r.bits rm
  | .segEs => 0x26 :: []
  | .segCs => 0x2E :: []
  | .segSs => 0x36 :: []
  | .segDs => 0x3E :: []
  | .segFs => 0x64 :: []
  | .segGs => 0x65 :: []
  | .opSize => 0x66 :: []
  | .addrSize => 0x67 :: []
  | .lockPrefix => 0xF0 :: []
  | .repne => 0xF2 :: []
  | .rep => 0xF3 :: []

/-- The first `n` bytes of a number, its low byte first. -/
def bytesOfNat : Nat → Nat → List Byte
  | 0, _ => []
  | n + 1, w => BitVec.ofNat 8 (w % 256) :: bytesOfNat n (w / 256)

/-- The bytes of a table word: `w`'s bytes from its least significant one, zeros up to the longest instruction. -/
def tableBytes (nbits w : Nat) : List Byte := bytesOfNat Config.maxInstrLen (w % 2 ^ nbits)

noncomputable section

/-- The instruction the decoder reads from a table word under the 16-bit sizes in force after reset
(30_encoding.md R206). -/
def decodeTableWord (nbits w : Nat) : Option Instr :=
  match decode false false (tableBytes nbits w) with
  | .ok (i, _) => some i
  | .error _ => none

end

end Sys2Proof
end

