-- ==== Sys2Proof/Machine/Memory.lean ====
section
/-! DEFINITION. The contents of physical memory as plain data: 2^32 bytes (20_memory.md R101), held as the list of the
bytes that differ from what an unlisted address reads as. -/

namespace Sys2Proof.Machine

/-- Physical memory: (address, byte) pairs in canonical form, see `Memory.wf`. -/
abbrev Memory := List Host.Cell

/-- What an address that nothing has written reads as. The spec leaves the contents of memory to the board
(20_memory.md R104). DESIGN CHOICE, unsafe (log 1). -/
def Memory.unlisted : Byte := 0

/-- The byte at a physical address. -/
def Memory.read : Memory → Nat → Byte
  | [], _ => Memory.unlisted
  | (k, v) :: m, a => if k = a then v else Memory.read m a

/-- Memory with one byte written, in canonical form again. -/
def Memory.write : Memory → Nat → Byte → Memory
  | [], a, v => if v = Memory.unlisted then [] else [(a, v)]
  | (k, w) :: m, a, v =>
    if a < k then (if v = Memory.unlisted then (k, w) :: m else (a, v) :: (k, w) :: m)
    else if a = k then (if v = Memory.unlisted then m else (a, v) :: m)
    else (k, w) :: Memory.write m a v

/-- Every address of the list is above `k`, and the addresses rise strictly, lie in the 32-bit space and hold no byte
equal to the unlisted one. -/
def Memory.wfAbove (k : Nat) : Memory → Bool
  | [] => true
  | (a, v) :: m => decide (k < a) && decide (a < 2 ^ 32) && decide (v ≠ Memory.unlisted) && Memory.wfAbove a m

/-- The canonical form: addresses strictly rising below 2^32 (20_memory.md R101), no byte that an unlisted address
would read as. Equal memories are equal lists. -/
def Memory.wf : Memory → Bool
  | [] => true
  | (a, v) :: m => decide (a < 2 ^ 32) && decide (v ≠ Memory.unlisted) && Memory.wfAbove a m

/-- The bytes at the given physical addresses as one number, the first address least significant
(20_memory.md R110). -/
def Memory.readAt (m : Memory) : List Dword → Nat
  | [] => 0
  | p :: ps => (m.read p.toNat).toNat + 256 * Memory.readAt m ps

/-- Memory with the bytes of a number written to the given physical addresses, the first address least significant
(20_memory.md R110); the last address is written first (R116). -/
def Memory.writeAt (m : Memory) : List Dword → Nat → Memory
  | [], _ => m
  | p :: ps, v => (Memory.writeAt m ps (v / 256)).write p.toNat (BitVec.ofNat 8 v)

end Sys2Proof.Machine
end

