-- ==== Sys2Proof/Machine/State.lean ====
section
/-! DEFINITION. The state of the Intel386 DX as plain data: everything 10_state.md R20 names, the inputs the platform
drives, what the board and the other bus masters do, and four fields of the model's own. State.reset is the machine right after RESET. -/

namespace Sys2Proof.Machine

/-- The eight general registers (10_state.md R21). -/
structure Regs where
  eax : Dword
  ecx : Dword
  edx : Dword
  ebx : Dword
  esp : Dword
  ebp : Dword
  esi : Dword
  edi : Dword
deriving DecidableEq, Repr

/-- The defined bits of EFLAGS (10_state.md R30 to R43); `ifl` is IF. The reserved bits are no state (R44). -/
structure Flags where
  cf : Bool
  pf : Bool
  af : Bool
  zf : Bool
  sf : Bool
  tf : Bool
  ifl : Bool
  df : Bool
  of : Bool
  iopl : BitVec 2
  nt : Bool
  rf : Bool
  vm : Bool
deriving DecidableEq, Repr

/-- A segment register with its hidden descriptor register (10_state.md R51). -/
structure SegReg where
  sel : Word
  base : Dword
  limit : Dword
  valid : Bool
  present : Bool
  dpl : BitVec 2
  code : Bool
  readable : Bool
  writable : Bool
  expandDown : Bool
  conforming : Bool
  big : Bool
deriving DecidableEq, Repr

/-- The six segment registers (10_state.md R50). -/
structure Segs where
  es : SegReg
  cs : SegReg
  ss : SegReg
  ds : SegReg
  fs : SegReg
  gs : SegReg
deriving DecidableEq, Repr

/-- GDTR or IDTR (10_state.md R66, R67). -/
structure TableReg where
  base : Dword
  limit : Word
deriving DecidableEq, Repr

/-- LDTR with its hidden descriptor register (10_state.md R68); `valid` is false when there is no LDT. -/
structure LdtReg where
  sel : Word
  valid : Bool
  base : Dword
  limit : Dword
deriving DecidableEq, Repr

/-- TR with its hidden descriptor register (10_state.md R69); `is386` tells an Intel386 DX TSS from an 80286 one. -/
structure TaskReg where
  sel : Word
  base : Dword
  limit : Dword
  is386 : Bool
deriving DecidableEq, Repr

/-- The stored bits of CR0 (10_state.md R55); `r` is bit 4 (R57). -/
structure Cr0 where
  pg : Bool
  r : Bool
  ts : Bool
  em : Bool
  mp : Bool
  pe : Bool
deriving DecidableEq, Repr

/-- The breakpoint address registers (10_state.md R70). -/
structure DebugAddrs where
  dr0 : Dword
  dr1 : Dword
  dr2 : Dword
  dr3 : Dword
deriving DecidableEq, Repr

/-- The defined bits of DR6 (10_state.md R72): B3..B0, BD, BS, BT. -/
structure DebugStatus where
  b : BitVec 4
  bd : Bool
  bs : Bool
  bt : Bool
deriving DecidableEq, Repr

/-- A valid TLB entry (10_state.md R80, R75, R76). -/
structure TlbEntry where
  tag : BitVec 20
  phys : BitVec 20
  d : Bool
  u : Bool
  w : Bool
deriving DecidableEq, Repr

/-- The run state (10_state.md R84). -/
inductive RunState where
  | running
  | halted
  | shutdown
deriving DecidableEq, Repr

/-- The debug trap held between an instruction and the next boundary (10_state.md R86, 60_exceptions.md R686):
single step, task switch, data breakpoints, and which of these must be reported at the very next boundary. -/
structure PendingTrap where
  bs : Bool
  bt : Bool
  data : BitVec 4
  exact : BitVec 4
deriving DecidableEq, Repr

/-- The input pins the processor samples: INTR with the vector its acknowledge cycle returns (60_exceptions.md R622,
R623), BUSY#, ERROR#, PEREQ (10_state.md R85); true is asserted. -/
structure Pins where
  intr : Bool
  vector : Byte
  busy : Bool
  error : Bool
  pereq : Bool
deriving DecidableEq, Repr

/-- What the platform can do between two steps (log 9): drive the pins, give NMI a rising edge (60_exceptions.md
R621), RESET the processor with or without self test (70_reset_and_hazards.md R700, R703). -/
inductive Input where
  | pins (p : Pins)
  | nmi
  | reset (selfTest : Bool)
deriving DecidableEq, Repr

/-- A byte another bus master writes to memory (20_memory.md R186). -/
structure BusWrite where
  addr : Dword
  value : Byte
deriving DecidableEq, Repr

/-- What answers a physical address (20_memory.md R104, parameter PHYS_MAP). -/
inductive PhysKind where
  | ram
  | rom
  | device
  | absent
deriving DecidableEq, Repr

/-- A region of the physical map: the numbers A31..A2 of its first and its last doubleword, and what answers there
(20_memory.md R101, R104). -/
structure Region where
  first : BitVec 30
  last : BitVec 30
  kind : PhysKind
deriving DecidableEq, Repr

/-- A run of ports of the I/O map, from its first to its last, and whether a device answers there (20_memory.md R170,
R175). -/
structure PortRange where
  first : Dword
  last : Dword
  device : Bool
deriving DecidableEq, Repr

/-- A bus cycle as the devices see it: in I/O space the ports that a device answers, the lowest first, each with its
byte (20_memory.md R172, R175), or 1 to 4 bytes at a memory-mapped device (R104). -/
inductive IoCycle where
  | port (write : Bool) (bytes : List Host.Cell)
  | memory (write : Bool) (addr : Dword) (bytes : Nat) (value : Dword)
deriving DecidableEq, Repr

/-- The repeat prefixes (30_encoding.md R205). -/
inductive RepKind where
  | repe
  | repne
deriving DecidableEq, Repr

/-- The model's own: what has been decoded of the instruction in progress (30_encoding.md R240, log 6), its prefixes,
its length so far, the data breakpoints its accesses have matched (60_exceptions.md R683), and whether it holds LOCK#
asserted (20_memory.md R182 to R184). Empty between steps. -/
structure InProgress where
  seg : Option Sreg
  opSize : Bool
  addrSize : Bool
  lock : Bool
  rep : Option RepKind
  len : Nat
  hits : BitVec 4
  held : Bool
deriving DecidableEq, Repr

/-- Nothing decoded yet. -/
def InProgress.empty : InProgress :=
  { seg := none, opSize := false, addrSize := false, lock := false, rep := none, len := 0, hits := 0,
    held := false }

/-- The state of the machine. -/
structure State where
  /-- General registers, 10_state.md R21. -/
  regs : Regs
  /-- Instruction pointer, 10_state.md R25. -/
  eip : Dword
  /-- EFLAGS, 10_state.md R30. -/
  flags : Flags
  /-- Segment registers, 10_state.md R50, R51. -/
  segs : Segs
  /-- Current privilege level, 10_state.md R52. -/
  cpl : BitVec 2
  /-- Control registers, 10_state.md R55, R64, R65 (CR3 bits 31..12). -/
  cr0 : Cr0
  cr2 : Dword
  cr3 : BitVec 20
  /-- System address registers, 10_state.md R66 to R69. -/
  gdtr : TableReg
  idtr : TableReg
  ldtr : LdtReg
  tr : TaskReg
  /-- Debug registers, 10_state.md R70 to R73 (DR7: its defined bits). -/
  dr : DebugAddrs
  dr6 : DebugStatus
  dr7 : Dword
  /-- Test registers, 10_state.md R75, R76 (their defined bits). -/
  tr6 : Dword
  tr7 : Dword
  /-- The TLB: 8 sets of 4 entries, entry 4 * set + way, 10_state.md R80, 20_memory.md R160. -/
  tlb : List (Option TlbEntry)
  /-- Physical memory, 20_memory.md R101. -/
  mem : Memory
  /-- The prefetch queue, 10_state.md R81: older values of code bytes that it may still hold (log 7). -/
  prefetch : List Host.Cell
  /-- The NMI latch and NMI in service, 10_state.md R82. -/
  nmiPending : Bool
  nmiInService : Bool
  /-- inhibit_interrupts_one_instruction, 10_state.md R83. -/
  inhibit : Bool
  /-- Run state, 10_state.md R84. -/
  run : RunState
  /-- Pending debug trap, 10_state.md R86. -/
  pend : PendingTrap
  /-- Whether the Intel387 DX protocol was selected after reset, 10_state.md R85. -/
  protocol387 : Bool
  /-- Input pins, 10_state.md R85, 60_exceptions.md R620. -/
  pins : Pins
  /-- The model's own: input events still to come, one taken by each step (log 9). -/
  inputs : List Input
  /-- What the other bus masters write at the successive moments when they can have the bus, one moment taken before
  each step and before each unlocked bus cycle: parameter BUS_MASTERS, 00_scope.md R7, 20_memory.md R186 (log 27). -/
  masters : List (List BusWrite)
  /-- The physical map: parameter PHYS_MAP, 00_scope.md R7, 20_memory.md R104; an address in no region is RAM, else the
  first region with it counts (log 1). -/
  map : List Region
  /-- The I/O map: parameter IO_MAP, 00_scope.md R7, 20_memory.md R175; a port in no range is a device's, else the first
  range with it counts (log 10). -/
  ports : List PortRange
  /-- The model's own: the bus cycles that devices saw, latest first (log 10). -/
  ioLog : List IoCycle
  /-- The model's own: the instruction being decoded or executed (log 6). -/
  dec : InProgress
  /-- The model's own: how many free values have been drawn (log 5). -/
  free : Nat
deriving DecidableEq, Repr

/-- Why the machine stops with a fault. -/
inductive Fault where
  /-- Raised by address translation when two valid TLB entries of a set have the same tag, which only writes to TR6
  can bring about; the spec gives no lookup for it (93_implementation_defined.md U18). Safe. -/
  | tlbMultipleMatch
deriving DecidableEq, Repr

/-- Why the model has no meaning for what the machine would do next. -/
inductive Refusal where
  /-- An instruction whose arm of `exec` has no meaning yet. Safe. -/
  | notModelled (mnemonic : String)
  /-- Raised by the fetch of one of the eight undocumented encodings (93_implementation_defined.md U23). Safe. -/
  | undocumentedOpcode
  /-- Raised by ESC with EM = 0 and TS = 0: the coprocessor's instructions are outside the spec (U30). Safe. -/
  | escWithoutEmulation
  /-- Raised by MOV to or from DR4 or DR5: reserved, no effect given (U8). Safe. -/
  | reservedDebugRegister
  /-- Raised at an instruction boundary while an enabled breakpoint has an undefined RW or LEN encoding (U2). Safe. -/
  | undefinedBreakpoint
  /-- Raised by an interrupt out of Virtual 8086 Mode through an 80286 gate (U3). Safe. -/
  | v86Through286Gate
  /-- Raised by MOV to CR0 with PG = 1 and PE = 0, which is not described (47_protection_model.md R531, U12). Safe. -/
  | pagingWithoutProtection
  /-- Raised by a write to TR6 while paging is on (U18). Safe. -/
  | tlbTestWhilePaging
  /-- Raised by a TLB lookup through TR6 that matches more than one entry (U18). Safe. -/
  | tlbLookupAmbiguous
deriving DecidableEq, Repr

/-- A segment register as a Real Mode load and reset leave it (10_state.md R53, R91). -/
def SegReg.real (sel : Word) (base : Dword) : SegReg :=
  { sel := sel, base := base, limit := 0x0000FFFF, valid := true, present := true, dpl := 0, code := true,
    readable := true, writable := true, expandDown := false, conforming := false, big := false }

/-- The state after RESET (70_reset_and_hazards.md R700, 10_state.md R90 to R93). Registers the spec leaves undefined
are zero here: DESIGN CHOICE, unsafe (log 2); DL is log 3, the empty TLB log 4, the pins log 9. Memory is all RAM and
no other master is there: the closed world of 20_memory.md R104 and R186 (logs 1 and 27). A device answers every port
(log 10). -/
def State.reset : State where
  regs := { eax := 0, ecx := 0, edx := 0x00000300 ||| Config.steppingDl.setWidth 32, ebx := 0, esp := 0, ebp := 0,
            esi := 0, edi := 0 }
  eip := 0x0000FFF0
  flags := { cf := false, pf := false, af := false, zf := false, sf := false, tf := false, ifl := false, df := false,
             of := false, iopl := 0, nt := false, rf := false, vm := false }
  segs := { es := SegReg.real 0 0, cs := SegReg.real 0xF000 0xFFFF0000, ss := SegReg.real 0 0,
            ds := SegReg.real 0 0, fs := SegReg.real 0 0, gs := SegReg.real 0 0 }
  cpl := 0
  cr0 := { pg := false, r := false, ts := false, em := false, mp := false, pe := false }
  cr2 := 0
  cr3 := 0
  gdtr := { base := 0, limit := 0 }
  idtr := { base := 0, limit := 0x03FF }
  ldtr := { sel := 0, valid := false, base := 0, limit := 0 }
  tr := { sel := 0, base := 0, limit := 0, is386 := false }
  dr := { dr0 := 0, dr1 := 0, dr2 := 0, dr3 := 0 }
  dr6 := { b := 0, bd := false, bs := false, bt := false }
  dr7 := 0
  tr6 := 0
  tr7 := 0
  tlb := List.replicate 32 none
  mem := []
  prefetch := []
  nmiPending := false
  nmiInService := false
  inhibit := false
  run := .running
  pend := { bs := false, bt := false, data := 0, exact := 0 }
  protocol387 := false
  pins := { intr := false, vector := 0, busy := false, error := false, pereq := false }
  inputs := []
  masters := []
  map := []
  ports := []
  ioLog := []
  dec := InProgress.empty
  free := 0

end Sys2Proof.Machine
end

