-- ==== Sys2Proof/Machine/Access.lean ====
section
/-! DEFINITION. How an instruction reaches registers, memory and ports: the monad of a meaning, exceptions as values,
free values, the bus with its other masters and the physical map, paging with the TLB, segment checks, and I/O. -/

namespace Sys2Proof.Machine

/-! Exceptions and the monad. -/

/-- The exceptions a meaning can raise, with the selector-format error code where there is one (60_exceptions.md
R602, R603): #DE, #DB for GD, #BR, #UD, #NM, #DF (only "interrupt table limit too small", R610), #TS, #NP, #SS, #GP,
#PF with the linear address and the bits P, W/R, U/S (R617), #MF. -/
inductive Exn where
  | de
  | db
  | br
  | ud
  | nm
  | df
  | ts (code : Word)
  | np (code : Word)
  | ss (code : Word)
  | gp (code : Word)
  | pf (lin : Dword) (p w u : Bool)
  | mf
deriving DecidableEq, Repr

/-- The vector of an exception (60_exceptions.md R602). -/
def Exn.vector : Exn → Nat
  | .de => 0
  | .db => 1
  | .br => 5
  | .ud => 6
  | .nm => 7
  | .df => 8
  | .ts _ => 10
  | .np _ => 11
  | .ss _ => 12
  | .gp _ => 13
  | .pf _ _ _ _ => 14
  | .mf => 16

/-- The exception with the EXT bit set in a selector-format code (60_exceptions.md R604). -/
def Exn.withExt : Exn → Exn
  | .ts c => .ts (c ||| 1)
  | .np c => .np (c ||| 1)
  | .ss c => .ss (c ||| 1)
  | .gp c => .gp (c ||| 1)
  | e => e

/-- Why a meaning stops short: an exception in the context of the instruction, an exception raised after the commit
point of a task switch and hence in the new task (60_exceptions.md R670, R673), a fault or a refusal of the model. -/
inductive Trap where
  | exn (e : Exn)
  | exnNew (e : Exn)
  | fault (f : Fault)
  | refused (r : Refusal)
deriving DecidableEq, Repr

/-- A meaning: it reads and changes the state and may stop short, keeping the state it stopped in. -/
abbrev M := EStateM Trap State

/-- raise #XX(code) (60_exceptions.md R601). -/
def raise {α : Type} (e : Exn) : M α := fun s => .error (.exn e) s

/-- Stop with a refusal of the model. -/
def refuse {α : Type} (r : Refusal) : M α := fun s => .error (.refused r) s

/-- Raise unless the condition holds. -/
def require (ok : Bool) (e : Exn) : M Unit := if ok then pure () else raise e

/-- A free value of `n` bits, at most 32 (93_implementation_defined.md treatment `any value`, log 5). -/
def draw (n : Nat) : M (BitVec n) := fun s =>
  .ok ((Config.freeValue s.free).setWidth n) { s with free := s.free + 1 }

/-- A free truth value. -/
def drawBool : M Bool := do
  let v ← draw 1
  pure (v == 1)

/-! Registers (10_state.md R21 to R23). -/

/-- The 32-bit register of a number. -/
def Regs.get (g : Regs) : Reg → Dword
  | .eax => g.eax
  | .ecx => g.ecx
  | .edx => g.edx
  | .ebx => g.ebx
  | .esp => g.esp
  | .ebp => g.ebp
  | .esi => g.esi
  | .edi => g.edi

/-- The registers with one 32-bit register written. -/
def Regs.set (g : Regs) (r : Reg) (v : Dword) : Regs :=
  match r with
  | .eax => { g with eax := v }
  | .ecx => { g with ecx := v }
  | .edx => { g with edx := v }
  | .ebx => { g with ebx := v }
  | .esp => { g with esp := v }
  | .ebp => { g with ebp := v }
  | .esi => { g with esi := v }
  | .edi => { g with edi := v }

/-- Which 32-bit register a byte register is part of, and whether it is its high byte (10_state.md R23). -/
def byteHome : Reg → Reg × Bool
  | .eax => (.eax, false)
  | .ecx => (.ecx, false)
  | .edx => (.edx, false)
  | .ebx => (.ebx, false)
  | .esp => (.eax, true)
  | .ebp => (.ecx, true)
  | .esi => (.edx, true)
  | .edi => (.ebx, true)

/-- Bits 15..0 replaced, 31..16 kept (10_state.md R22). -/
def setLow16 (x : Dword) (v : Word) : Dword := x.extractLsb' 16 16 ++ v

/-- Bits 7..0 replaced (10_state.md R23). -/
def setLow8 (x : Dword) (v : Byte) : Dword := x.extractLsb' 8 24 ++ v

/-- Bits 15..8 replaced (10_state.md R23). -/
def setHigh8 (x : Dword) (v : Byte) : Dword := x.extractLsb' 16 16 ++ v ++ x.extractLsb' 0 8

/-- reg(w, i): the register operand of a width (00_scope.md R11). -/
def Regs.read (g : Regs) (w : Width) (r : Reg) : BitVec w.bits :=
  match w with
  | .w8 => if (byteHome r).2 then (g.get (byteHome r).1).extractLsb' 8 8 else (g.get (byteHome r).1).extractLsb' 0 8
  | .w16 => (g.get r).extractLsb' 0 16
  | .w32 => g.get r

/-- reg(w, i) <- v; the other bits of the 32-bit register stay (40_data_transfer.md R300). -/
def Regs.write (g : Regs) (w : Width) (r : Reg) (v : BitVec w.bits) : Regs :=
  match w with
  | .w8 =>
    if (byteHome r).2 then g.set (byteHome r).1 (setHigh8 (g.get (byteHome r).1) v)
    else g.set (byteHome r).1 (setLow8 (g.get (byteHome r).1) v)
  | .w16 => g.set r (setLow16 (g.get r) v)
  | .w32 => g.set r v

/-- Read a register operand. -/
def getReg (w : Width) (r : Reg) : M (BitVec w.bits) := do
  let s ← get
  pure (s.regs.read w r)

/-- The state with a register operand written. -/
def State.withReg (s : State) (w : Width) (r : Reg) (v : BitVec w.bits) : State :=
  { s with regs := s.regs.write w r v }

/-- Write a register operand. -/
def setReg (w : Width) (r : Reg) (v : BitVec w.bits) : M Unit := modify fun s => s.withReg w r v

/-- The segment register of a name. -/
def Segs.get (g : Segs) : Sreg → SegReg
  | .es => g.es
  | .cs => g.cs
  | .ss => g.ss
  | .ds => g.ds
  | .fs => g.fs
  | .gs => g.gs

/-- The segment registers with one replaced. -/
def Segs.set (g : Segs) (r : Sreg) (v : SegReg) : Segs :=
  match r with
  | .es => { g with es := v }
  | .cs => { g with cs := v }
  | .ss => { g with ss := v }
  | .ds => { g with ds := v }
  | .fs => { g with fs := v }
  | .gs => { g with gs := v }

/-- Write a segment register with its descriptor register. -/
def setSeg (r : Sreg) (v : SegReg) : M Unit := modify fun s => { s with segs := s.segs.set r v }

/-! Physical memory. -/

/-- The `n` physical (or linear) addresses from `a` up, modulo 2^32 (20_memory.md R110). -/
def addrRun (a : Dword) : Nat → List Dword
  | 0 => []
  | n + 1 => a :: addrRun (a + 1) n

/-- Whether the byte at physical address `p` may lie in the prefetch queue: within the window ahead of the current
instruction (20_memory.md R188). Under paging only the page offset is compared, which covers every mapping
(log 7). -/
def State.mayBePrefetched (s : State) (p : Dword) : Bool :=
  let ahead := (p - (s.segs.cs.base + s.eip)).toNat
  if s.cr0.pg then decide (ahead % 4096 < Config.prefetchWindow) else decide (ahead < Config.prefetchWindow)

/-- A physical byte written (20_memory.md R110); the old value of a byte that may be in the prefetch queue is kept as
a candidate for the fetch (R188, log 7). -/
def State.putByte (s : State) (p : Dword) (v : Byte) : State :=
  { s with
    mem := s.mem.write p.toNat v
    prefetch := if s.mayBePrefetched p then (p.toNat, s.mem.read p.toNat) :: s.prefetch else s.prefetch }

/-- The bytes of a number written to physical addresses, the first address least significant (20_memory.md R110); the
last address is written first (R116). -/
def State.putBytes (s : State) : List Dword → Nat → State
  | [], _ => s
  | p :: ps, v => (State.putBytes s ps (v / 256)).putByte p (BitVec.ofNat 8 v)

/-! The bus: what answers an address, and the other masters. -/

/-- The doubleword A31..A2 that a physical address lies in (20_memory.md R101). -/
def busWord (p : Dword) : BitVec 30 := p.extractLsb' 2 30

/-- What answers a physical address (20_memory.md R104): RAM outside all regions. -/
def State.kindAt (s : State) (p : Dword) : PhysKind :=
  match s.map.find? fun r => decide (r.first ≤ busWord p) && decide (busWord p ≤ r.last) with
  | some r => r.kind
  | none => .ram

/-- A byte written by another master; what is no RAM keeps its contents (20_memory.md R104, R186). -/
def State.takeWrite (s : State) (x : BusWrite) : State :=
  if s.kindAt x.addr = .ram then s.putByte x.addr x.value else s

/-- What the other masters write the next time they can have the bus (20_memory.md R186, log 27). -/
def State.othersWrite (s : State) : State :=
  match s.masters with
  | [] => s
  | xs :: rest => xs.foldl State.takeWrite { s with masters := rest }

/-- The moment before a bus cycle at which other masters can have the bus, unless LOCK# is asserted
(20_memory.md R186). -/
def busGap : M Unit := modify fun s => if s.dec.held then s else s.othersWrite

/-- Located bytes by bus cycle: a new one begins at each multiple of 4 (20_memory.md R116). -/
def busCycles : List Dword → List (List Dword)
  | [] => []
  | [p] => [[p]]
  | p :: q :: ps =>
    match busCycles (q :: ps) with
    | [] => [[p]]
    | c :: cs => if q.extractLsb' 0 2 = 0 then [p] :: c :: cs else (p :: c) :: cs

/-- Remember an access to a device (20_memory.md R104, log 10). -/
def logCycle (c : IoCycle) : M Unit := modify fun s => { s with ioLog := c :: s.ioLog }

/-- A read cycle: RAM and ROM give their contents, a device or an absent address a free value (20_memory.md R104,
92_eei_decisions.md D5). -/
def readCycle (ps : List Dword) : M Nat := do
  busGap
  let s ← get
  match s.kindAt (ps.headD 0) with
  | .ram | .rom => pure (s.mem.readAt ps)
  | .absent => do
    let v ← draw 32
    pure (v.toNat % 256 ^ ps.length)
  | .device => do
    let v ← draw 32
    let x := v.toNat % 256 ^ ps.length
    logCycle (.memory false (ps.headD 0) ps.length (BitVec.ofNat 32 x))
    pure x

/-- A write cycle: RAM keeps it, a device sees it, ROM and an absent address drop it (20_memory.md R104,
92_eei_decisions.md D5). -/
def writeCycle (ps : List Dword) (v : Nat) : M Unit := do
  busGap
  let s ← get
  match s.kindAt (ps.headD 0) with
  | .ram => modify fun u => u.putBytes ps v
  | .device => logCycle (.memory true (ps.headD 0) ps.length (BitVec.ofNat 32 (v % 256 ^ ps.length)))
  | .rom | .absent => pure ()

/-- The read cycles of an operand, in memory or in I/O space, the highest-order bytes first (20_memory.md R116). -/
def readCycles (cycle : List Dword → M Nat) : List (List Dword) → M Nat
  | [] => pure 0
  | c :: cs => do
    let high ← readCycles cycle cs
    let low ← cycle c
    pure (low + 256 ^ c.length * high)

/-- The write cycles of an operand, in memory or in I/O space, the highest-order bytes first (20_memory.md R116). -/
def writeCycles (cycle : List Dword → Nat → M Unit) : List (List Dword) → Nat → M Unit
  | [], _ => pure ()
  | c :: cs, v => do
    writeCycles cycle cs (v / 256 ^ c.length)
    cycle c v

/-- MemRead at located bytes (20_memory.md R110, R116, R187). -/
def memRead (ps : List Dword) : M Nat := readCycles readCycle (busCycles ps)

/-- MemWrite at located bytes (20_memory.md R110, R116, R187). -/
def memWrite (ps : List Dword) (v : Nat) : M Unit := writeCycles writeCycle (busCycles ps) v

/-- LOCK# is asserted from the next bus cycle on (20_memory.md R182, R184). -/
def assertLock : M Unit := do
  busGap
  modify fun s => { s with dec := { s.dec with held := true } }

/-- A locked read-modify-write of located bytes (20_memory.md R182 to R184). -/
def lockedModify (ps : List Dword) (f : Nat → Nat) : M Unit := do
  let s ← get
  assertLock
  let v ← memRead ps
  memWrite ps (f v)
  modify fun u => { u with dec := { u.dec with held := s.dec.held } }

/-! Paging and the TLB. -/

/-- The linear page number, bits 31..12. -/
def pageOf (lin : Dword) : BitVec 20 := lin.extractLsb' 12 20

/-- The entries of the set of a page, by way: sets of 4 indexed by linear bits 14..12 (20_memory.md R160). -/
def tlbSet (tlb : List (Option TlbEntry)) (page : BitVec 20) : List (Option TlbEntry) :=
  (tlb.drop (4 * (page.extractLsb' 0 3).toNat)).take 4

/-- The valid entries of a page (20_memory.md R150: TLB lookup of lin[31:12]). -/
def tlbMatches (tlb : List (Option TlbEntry)) (page : BitVec 20) : List TlbEntry :=
  (tlbSet tlb page).filterMap fun e => e.bind fun t => if t.tag = page then some t else none

/-- The way that already holds the page, else a free way, else none: the replacement is then TLB_EVICT's choice
(92_eei_decisions.md D7, log 26). -/
def tlbWay (tlb : List (Option TlbEntry)) (page : BitVec 20) : Option Nat :=
  ((tlbSet tlb page).findIdx? fun e => e.any fun t => t.tag = page).or ((tlbSet tlb page).findIdx? Option.isNone)

/-- Put an entry into a way of its set. -/
def tlbPut (way : Nat) (e : Option TlbEntry) (page : BitVec 20) : M Unit :=
  modify fun s => { s with tlb := s.tlb.set (4 * (page.extractLsb' 0 3).toNat + way) e }

/-- TLB insert (20_memory.md R150, R160; parameter TLB_EVICT, log 26). -/
def tlbInsert (e : TlbEntry) : M Unit := do
  let s ← get
  match tlbWay s.tlb e.tag with
  | some way => tlbPut way (some e) e.tag
  | none => do
    let v ← draw 2
    tlbPut v.toNat (some e) e.tag

/-- Every valid bit cleared (20_memory.md R161). -/
def tlbFlush : M Unit := modify fun s => { s with tlb := List.replicate 32 none }

/-- The physical address of a page directory or page table entry (20_memory.md R141). -/
def entryAddr (table : BitVec 20) (index : BitVec 10) : Dword := table ++ index ++ (0 : BitVec 2)

/-- Set A or D bits of an entry, if it needs it, by a locked read-modify-write (20_memory.md R150, R152). -/
def updateEntry (needed : Bool) (at_ : List Dword) (bits : Dword) : M Unit :=
  if needed then lockedModify at_ fun v => (BitVec.ofNat 32 v ||| bits).toNat else pure ()

/-- A page directory or page table entry. -/
def readEntry (at_ : List Dword) : M Dword := do
  let v ← memRead at_
  pure (BitVec.ofNat 32 v)

/-- Walk the tables for a linear address and fill the TLB (20_memory.md R150): a faulting walk sets no A or D bit
(log 31). -/
def pageWalk (lin : Dword) (write user : Bool) : M Dword := do
  let s ← get
  let pdeAt := addrRun (entryAddr s.cr3 (lin.extractLsb' 22 10)) 4
  let pde ← readEntry pdeAt
  require (pde.getLsbD 0) (.pf lin false write user)
  let pteAt := addrRun (entryAddr (pde.extractLsb' 12 20) (lin.extractLsb' 12 10)) 4
  let pte ← readEntry pteAt
  require (pte.getLsbD 0) (.pf lin false write user)
  let u := pde.getLsbD 2 && pte.getLsbD 2
  let w := pde.getLsbD 1 && pte.getLsbD 1
  require (!user || (u && (!write || w))) (.pf lin true write user)
  updateEntry (!pde.getLsbD 5) pdeAt 0x20
  updateEntry (!pte.getLsbD 5 || (write && !pte.getLsbD 6)) pteAt (if write then 0x60 else 0x20)
  tlbInsert { tag := pageOf lin, phys := pte.extractLsb' 12 20, d := pte.getLsbD 6 || write, u := u, w := w }
  pure (pte.extractLsb' 12 20 ++ lin.extractLsb' 0 12)

/-- Translate (20_memory.md R150). `sys`: an access the processor makes on its own account (R147). Paging needs
CR0.PG; PG without PE never arises, since the MOV that would set it is refused (R140, log 12). -/
def translate (lin : Dword) (write sys : Bool) : M Dword := do
  let s ← get
  if !s.cr0.pg then pure lin
  else do
    let user := decide (s.cpl = 3) && !sys
    match tlbMatches s.tlb (pageOf lin) with
    | [] => pageWalk lin write user
    | [e] =>
      if !write || e.d then do
        require (!user || (e.u && (!write || e.w))) (.pf lin true write user)
        pure (e.phys ++ lin.extractLsb' 0 12)
      else pageWalk lin write user
    | _ => fun t => .error (.fault .tlbMultipleMatch) t

/-- The physical addresses of the `n` bytes at a linear address, `n` at most 4096: one translation, or two when the
access crosses a page under paging, the low part first (20_memory.md R151). -/
def linLocate (lin : Dword) (n : Nat) (write sys : Bool) : M (List Dword) := do
  let s ← get
  let room := 4096 - (lin.extractLsb' 0 12).toNat
  if !s.cr0.pg || decide (n ≤ room) then do
    let p ← translate lin write sys
    pure (addrRun p n)
  else do
    let p ← translate lin write sys
    let q ← translate (lin + BitVec.ofNat 32 room) write sys
    pure (addrRun p room ++ addrRun q (n - room))

/-- LinRead of a system structure: GDT, LDT, IDT, TSS (20_memory.md R147, R150). -/
def sysRead (lin : Dword) (n : Nat) : M Nat := do
  let ps ← linLocate lin n false true
  memRead ps

/-- A 16-bit system read. -/
def sysRead16 (lin : Dword) : M Word := do
  let v ← sysRead lin 2
  pure (BitVec.ofNat 16 v)

/-- A 32-bit system read. -/
def sysRead32 (lin : Dword) : M Dword := do
  let v ← sysRead lin 4
  pure (BitVec.ofNat 32 v)

/-! Data breakpoints (60_exceptions.md R681, R683). -/

/-- RWi of DR7 (10_state.md R73). -/
def bpRw (dr7 : Dword) (i : Nat) : BitVec 2 := dr7.extractLsb' (16 + 4 * i) 2

/-- LENi of DR7 (10_state.md R73). -/
def bpLenField (dr7 : Dword) (i : Nat) : BitVec 2 := dr7.extractLsb' (18 + 4 * i) 2

/-- The length in bytes a LEN field stands for; 10 is undefined (10_state.md R73). -/
def bpLen (field : BitVec 2) : Option Nat :=
  match field.toNat with
  | 0 => some 1
  | 1 => some 2
  | 3 => some 4
  | _ => none

/-- DRi. -/
def DebugAddrs.get (d : DebugAddrs) (i : Nat) : Dword :=
  match i with
  | 0 => d.dr0
  | 1 => d.dr1
  | 2 => d.dr2
  | _ => d.dr3

/-- Whether the `n` bytes from `lin` meet the aligned field of `len` bytes that holds `dr`, modulo 2^32
(60_exceptions.md R681). -/
def bpMeets (dr : Dword) (len : Nat) (lin : Dword) (n : Nat) : Bool :=
  let start := dr - BitVec.ofNat 32 (dr.toNat % len)
  decide ((lin - start).toNat < len) || decide ((start - lin).toNat < n)

/-- data match i (60_exceptions.md R681). -/
def dataMatch (s : State) (i : Nat) (lin : Dword) (n : Nat) (write : Bool) : Bool :=
  match bpLen (bpLenField s.dr7 i) with
  | none => false
  | some len =>
    (bpRw s.dr7 i == 3 || (bpRw s.dr7 i == 1 && write)) && bpMeets (s.dr.get i) len lin n

/-- Four truth values as the bits 3..0. -/
def bits4 (f : Nat → Bool) : BitVec 4 :=
  BitVec.ofBool (f 3) ++ BitVec.ofBool (f 2) ++ BitVec.ofBool (f 1) ++ BitVec.ofBool (f 0)

/-- The enabled breakpoints, Li or Gi (10_state.md R73). -/
def bpEnabled (dr7 : Dword) : BitVec 4 := bits4 fun i => dr7.getLsbD (2 * i) || dr7.getLsbD (2 * i + 1)

/-- The breakpoints whose RW and LEN encoding is undefined (93_implementation_defined.md U2). -/
def bpUndefined (dr7 : Dword) : BitVec 4 :=
  bits4 fun i => bpRw dr7 i == 2 || bpLenField dr7 i == 2 || (bpRw dr7 i == 0 && bpLenField dr7 i != 0)

/-- If one of the data breakpoints that the accesses of an instruction matched is enabled, all that matched set their
bits of DR6, and the enabled ones are pending: each is a cause of exception 1 (60_exceptions.md R683, R686). A disabled
one of undefined encoding may or may not match (log 22). -/
def State.noteHits (s : State) : State :=
  if s.dec.hits &&& bpEnabled s.dr7 = 0 then s
  else
    let m := s.dec.hits ||| ((Config.freeValue s.free).setWidth 4 &&& bpUndefined s.dr7)
    let causes := s.dec.hits &&& bpEnabled s.dr7
    { s with
      dr6 := { s.dr6 with b := s.dr6.b ||| m }
      pend := { s.pend with data := s.pend.data ||| causes,
                            exact := s.pend.exact ||| (if s.dr7.getLsbD 8 || s.dr7.getLsbD 9 then causes else 0) }
      free := s.free + 1 }

/-- Decide for each data breakpoint matched without GE and LE whether it is reported at this boundary, stays held, or is
never reported, as free values say (60_exceptions.md R686, 93_implementation_defined.md U15). One decision for each
breakpoint, so that two matches of one breakpoint held together are reported once, is the model's choice (log 22). -/
def State.decideHeld (s : State) : State :=
  if s.pend.data &&& ~~~s.pend.exact = 0 then s
  else
    let any : BitVec 8 := (Config.freeValue s.free).setWidth 8
    let now := s.pend.data &&& (s.pend.exact ||| any.extractLsb' 0 4)
    { s with
      pend := { s.pend with data := now ||| (s.pend.data &&& any.extractLsb' 4 4), exact := now }
      free := s.free + 1 }

/-- The data breakpoints to report at this boundary, and the state in which they are no longer held. -/
def State.takeExact (s : State) : BitVec 4 × State :=
  let now := s.pend.data &&& s.pend.exact
  if now = 0 then (0, s)
  else (now, { s with pend := { s.pend with data := s.pend.data &&& ~~~now, exact := 0 } })

/-- Remember which data breakpoints an access of the instruction matches. -/
def recordAccess (lin : Dword) (n : Nat) (write : Bool) : M Unit :=
  modify fun s => { s with dec := { s.dec with hits := s.dec.hits ||| bits4 fun i => dataMatch s i lin n write } }

/-! Segmentation (20_memory.md R120 to R130). -/

/-- The checks of SegAccess (20_memory.md R130): none if the access is good, else what it raises. `f` is #SS through
SS and #GP otherwise. A write asks only for a writable register: the model's choice (log 32). -/
def segCheck (seg : SegReg) (f : Exn) (off : Dword) (n : Nat) (write : Bool) : Option Exn :=
  let last := off.toNat + (n - 1)
  if !seg.valid then some (.gp 0)
  else if write && !seg.writable then some f
  else if !write && seg.code && !seg.readable then some f
  else if !seg.expandDown then
    if seg.limit.toNat < last then some f else none
  else if off.toNat ≤ seg.limit.toNat ∨ (if seg.big then 0xFFFFFFFF else 0xFFFF) < last then some f
  else none

/-- #SS through SS, #GP through the others (20_memory.md R130). -/
def segFault (sr : Sreg) : Exn := if sr = .ss then .ss 0 else .gp 0

/-- The physical bytes of a data access through a segment register, all its checks made: segment first, then pages
(20_memory.md R130, R151; 60_exceptions.md R630). -/
def segLocate (sr : Sreg) (off : Dword) (n : Nat) (write : Bool) : M (List Dword) := do
  let s ← get
  let seg := s.segs.get sr
  match segCheck seg (segFault sr) off n write with
  | some e => raise e
  | none => do
    recordAccess (seg.base + off) n write
    linLocate (seg.base + off) n write false

/-- SegRead (20_memory.md R130). -/
def segRead (sr : Sreg) (off : Dword) (w : Width) : M (BitVec w.bits) := do
  let ps ← segLocate sr off w.bytes false
  let v ← memRead ps
  pure (BitVec.ofNat w.bits v)

/-! Attributes of the instruction in progress. -/

/-- The operand-size attribute is 32 (30_encoding.md R206). -/
def State.os32 (s : State) : Bool := s.segs.cs.big ^^ s.dec.opSize

/-- The address-size attribute is 32 (30_encoding.md R207). -/
def State.as32 (s : State) : Bool := s.segs.cs.big ^^ s.dec.addrSize

/-- The width `v` (30_encoding.md R220). -/
def State.vWidth (s : State) : Width := Width.ofOs s.os32

/-- The offset of the next instruction (10_state.md R26, modulo 2^32 by D12). -/
def State.nextEip (s : State) : Dword := s.eip + BitVec.ofNat 32 s.dec.len

/-- Protected Mode without Virtual 8086 Mode (10_state.md R61, R43). -/
def State.protMode (s : State) : Bool := s.cr0.pe && !s.flags.vm

/-- The segment an explicit memory operand uses: the override, else the default (30_encoding.md R203, R215). -/
def State.segFor (s : State) (dflt : Sreg) : Sreg := s.dec.seg.getD dflt

/-! The stack (40_data_transfer.md R302). -/

/-- The stack offset: ESP or SP by the B bit of SS (20_memory.md R134). -/
def State.stackPtr (s : State) : Dword :=
  if s.segs.ss.big then s.regs.esp else (s.regs.esp.extractLsb' 0 16).setWidth 32

/-- An offset reduced to the width of the stack pointer. -/
def State.stackWrap (s : State) (v : Dword) : Dword :=
  if s.segs.ss.big then v else (v.extractLsb' 0 16).setWidth 32

/-- The stack pointer register with a new offset: ESP, or SP with the upper half kept (20_memory.md R134). -/
def State.stackSet (s : State) (v : Dword) : Dword :=
  if s.segs.ss.big then v else setLow16 s.regs.esp (v.extractLsb' 0 16)

/-- Move the stack pointer to an offset. -/
def setStackPtr (v : Dword) : M Unit :=
  modify fun s => { s with regs := { s.regs with esp := s.stackSet v } }

/-- The bytes of the `k`-th item of `n` bytes below the stack pointer (the first push is k = 1). -/
def pushLocate (n k : Nat) : M (List Dword) := do
  let s ← get
  segLocate .ss (s.stackWrap (s.stackPtr - BitVec.ofNat 32 (n * k))) n true

/-- The bytes of an item of `n` bytes that starts `at` bytes above the stack pointer. -/
def popLocate (n at_ : Nat) : M (List Dword) := do
  let s ← get
  segLocate .ss (s.stackWrap (s.stackPtr + BitVec.ofNat 32 at_)) n false

/-- Move the stack pointer by a signed number of bytes. -/
def moveStackPtr (by_ : Dword) : M Unit := do
  let s ← get
  setStackPtr (s.stackPtr + by_)

/-- The bytes of `count` successive pushes of `n` bytes each, from the `k`-th on. -/
def locatePushes (n : Nat) : (count k : Nat) → M (List (List Dword))
  | 0, _ => pure []
  | c + 1, k => do
    let p ← pushLocate n k
    let ps ← locatePushes n c (k + 1)
    pure (p :: ps)

/-- What the segment check of the `k`-th push of `n` bytes raises, if anything. -/
def State.pushFault (s : State) (n k : Nat) : Option Exn :=
  segCheck s.segs.ss (.ss 0) (s.stackWrap (s.stackPtr - BitVec.ofNat 32 (n * k))) n true

/-- What "the stack has no room for `count` items of `n` bytes" raises: the segment checks of their pushes, #SS(0)
(45_control_transfer.md R481, R483, R484, 60_exceptions.md R640). The page checks come with `locatePushes`
(log 38). -/
def State.roomFault (s : State) (n count : Nat) : Option Exn :=
  (List.range count).findSome? fun k => s.pushFault n (k + 1)

/-- Raise it. -/
def requireRoom (n count : Nat) : M Unit := do
  let s ← get
  match s.roomFault n count with
  | some e => raise e
  | none => pure ()

/-- Write numbers to located places, one each. -/
def memWriteAll : List (List Dword) → List Nat → M Unit
  | p :: ps, v :: vs => do
    memWrite p v
    memWriteAll ps vs
  | _, _ => pure ()

/-- Push several items of `n` bytes, the first value first: every item is checked before any is written
(92_eei_decisions.md D6), then all are written and the stack pointer moves. -/
def pushAll (n : Nat) (vs : List Nat) : M Unit := do
  let ls ← locatePushes n vs.length 1
  memWriteAll ls vs
  moveStackPtr (-(BitVec.ofNat 32 (n * vs.length)))

/-- Push (40_data_transfer.md R302). -/
def push (w : Width) (v : BitVec w.bits) : M Unit := do
  let ps ← pushLocate w.bytes 1
  memWrite ps v.toNat
  moveStackPtr (-(BitVec.ofNat 32 w.bytes))

/-- Read an item of the stack without moving the stack pointer. -/
def peek (w : Width) (at_ : Nat) : M (BitVec w.bits) := do
  let ps ← popLocate w.bytes at_
  let v ← memRead ps
  pure (BitVec.ofNat w.bits v)

/-- Pop (40_data_transfer.md R302). -/
def pop (w : Width) : M (BitVec w.bits) := do
  let v ← peek w 0
  moveStackPtr (BitVec.ofNat 32 w.bytes)
  pure v

/-! I/O (20_memory.md R170 to R175). -/

/-- IoPermitted (20_memory.md R173). -/
def ioPermitted (port : Nat) (n : Nat) : M Unit := do
  let s ← get
  if !s.cr0.pe then pure ()
  else if !s.flags.vm && decide (s.cpl ≤ s.flags.iopl) then pure ()
  else do
    require s.tr.is386 (.gp 0)
    require (decide (0x67 ≤ s.tr.limit.toNat)) (.gp 0)
    let off ← sysRead16 (s.tr.base + 0x66)
    let a := off.toNat + port / 8
    require (decide (a + 1 ≤ s.tr.limit.toNat)) (.gp 0)
    let bits ← sysRead16 (s.tr.base + BitVec.ofNat 32 a)
    require (decide ((bits >>> (port % 8)).toNat % 2 ^ n = 0)) (.gp 0)

/-- Whether a device answers a port (20_memory.md R175): it does outside all ranges (log 10). -/
def State.portAnswers (s : State) (p : Dword) : Bool :=
  match s.ports.find? fun r => decide (r.first ≤ p) && decide (p ≤ r.last) with
  | some r => r.device
  | none => true

/-- The bytes of a number at successive ports, the first least significant: those that a device answers
(20_memory.md R172, R175). -/
def State.portBytes (s : State) : List Dword → Nat → List Host.Cell
  | [], _ => []
  | p :: ps, v =>
    if s.portAnswers p then (p.toNat, BitVec.ofNat 8 v) :: s.portBytes ps (v / 256) else s.portBytes ps (v / 256)

/-- Hand an I/O cycle to the devices that answer its ports, if there are any (20_memory.md R175, log 10). -/
def logPorts (write : Bool) (ps : List Dword) (v : Nat) : M Unit := do
  let s ← get
  match s.portBytes ps v with
  | [] => pure ()
  | c :: cs => logCycle (.port write (c :: cs))

/-- An I/O read cycle: a device and an absent port alike give a free value (20_memory.md R175, 92_eei_decisions.md D5). -/
def portReadCycle (ps : List Dword) : M Nat := do
  busGap
  let v ← draw 32
  let x := v.toNat % 256 ^ ps.length
  logPorts false ps x
  pure x

/-- An I/O write cycle: devices see their bytes, what goes to an absent port is dropped (20_memory.md R175,
92_eei_decisions.md D5). -/
def portWriteCycle (ps : List Dword) (v : Nat) : M Unit := do
  busGap
  logPorts true ps v

/-- The addresses of the ports of an access, which do not wrap at FFFFH (20_memory.md R172,
93_implementation_defined.md U19), by bus cycle (R116). -/
def portCycles (port n : Nat) : List (List Dword) := busCycles (addrRun (BitVec.ofNat 32 port) n)

/-- IoRead after the permission check (20_memory.md R172, R175). -/
def ioRead (port : Nat) (w : Width) : M (BitVec w.bits) := do
  let v ← readCycles portReadCycle (portCycles port w.bytes)
  pure (BitVec.ofNat w.bits v)

/-- IoWrite after the permission check (20_memory.md R172, R175). -/
def ioWrite (port : Nat) (w : Width) (v : BitVec w.bits) : M Unit :=
  writeCycles portWriteCycle (portCycles port w.bytes) v.toNat

/-! The instruction pointer. -/

/-- The fetch continues at a new place: EIP is written and the prefetch queue discarded (20_memory.md R188). -/
def jumpTo (off : Dword) : M Unit := modify fun s => { s with eip := off, prefetch := [] }

/-- EIP past the instruction (10_state.md R26). -/
def advance : M Unit := modify fun s => { s with eip := s.nextEip }

end Sys2Proof.Machine
end

