-- ==== Sys2Proof/Machine/Descriptors.lean ====
section
/-! DEFINITION. Segment descriptors and the loading of segment registers (20_memory.md R125 to R138, 10_state.md
R53), the commit of CS and the stack of an inner level (45_control_transfer.md R481, R482). -/

namespace Sys2Proof.Machine

/-- The 8 bytes of a descriptor as a number (20_memory.md R128, R133). -/
abbrev Descriptor := BitVec 64

/-- Base address (20_memory.md R128). -/
def descBase (d : Descriptor) : Dword := d.extractLsb' 56 8 ++ d.extractLsb' 32 8 ++ d.extractLsb' 16 16

/-- The 32-bit limit, scaled by G (20_memory.md R127). -/
def descLimit (d : Descriptor) : Dword :=
  let raw : BitVec 20 := d.extractLsb' 48 4 ++ d.extractLsb' 0 16
  if d.getLsbD 55 then raw ++ (0xFFF : BitVec 12) else raw.setWidth 32

/-- P (20_memory.md R129). -/
def descP (d : Descriptor) : Bool := d.getLsbD 47

/-- DPL (20_memory.md R129). -/
def descDpl (d : Descriptor) : BitVec 2 := d.extractLsb' 45 2

/-- S: a code or data segment (20_memory.md R129). -/
def descS (d : Descriptor) : Bool := d.getLsbD 44

/-- E: executable (20_memory.md R129). -/
def descE (d : Descriptor) : Bool := d.getLsbD 43

/-- C of a code segment, ED of a data segment (20_memory.md R129). -/
def descC (d : Descriptor) : Bool := d.getLsbD 42

/-- R of a code segment, W of a data segment (20_memory.md R129). -/
def descW (d : Descriptor) : Bool := d.getLsbD 41

/-- The type of a system descriptor or gate (20_memory.md R132). -/
def descType (d : Descriptor) : Nat := (d.extractLsb' 40 4).toNat

/-- A code segment. -/
def descIsCode (d : Descriptor) : Bool := descS d && descE d

/-- A writable data segment. -/
def descIsStack (d : Descriptor) : Bool := descS d && !descE d && descW d

/-- A conforming code segment, for a descriptor with E = 1. -/
def descConforming (d : Descriptor) : Bool := descE d && descC d

/-- The selector field of a gate (20_memory.md R133). -/
def gateSelector (g : Descriptor) : Word := g.extractLsb' 16 16

/-- The offset of a gate: 32 bits for an Intel386 DX gate, else 16 zero-extended (20_memory.md R133). -/
def gateOffset (g : Descriptor) (is386 : Bool) : Dword :=
  if is386 then g.extractLsb' 48 16 ++ g.extractLsb' 0 16 else (g.extractLsb' 0 16).setWidth 32

/-- The word count of a call gate (20_memory.md R133). -/
def gateCount (g : Descriptor) : Nat := (g.extractLsb' 32 5).toNat

/-- sel and FFFCH (60_exceptions.md R604). -/
def selCode (sel : Word) : Word := sel &&& 0xFFFC

/-- A null selector: bits 15..2 zero (20_memory.md R125). -/
def selNull (sel : Word) : Bool := selCode sel == 0

/-- RPL (20_memory.md R125). -/
def selRpl (sel : Word) : BitVec 2 := sel.extractLsb' 0 2

/-- TI: the LDT (20_memory.md R125). -/
def selTi (sel : Word) : Bool := sel.getLsbD 2

/-- sel and FFF8H as an offset into its table. -/
def selOffset (sel : Word) : Dword := (sel &&& 0xFFF8).setWidth 32

/-- DescriptorAddress, with the exception the caller raises (20_memory.md R126). -/
def descAddr (sel : Word) (f : Word → Exn) : M Dword := do
  let s ← get
  if selTi sel then do
    require (s.ldtr.valid && decide ((selOffset sel).toNat + 7 ≤ s.ldtr.limit.toNat)) (f (selCode sel))
    pure (s.ldtr.base + selOffset sel)
  else do
    require (decide ((selOffset sel).toNat + 7 ≤ s.gdtr.limit.toNat)) (f (selCode sel))
    pure (s.gdtr.base + selOffset sel)

/-- The 8 bytes at a linear address, read on the processor's own account (20_memory.md R126, R147). -/
def readDesc (a : Dword) : M Descriptor := do
  let v ← sysRead a 8
  pure (BitVec.ofNat 64 v)

/-- The descriptor of a selector with its linear address (20_memory.md R126). -/
def findDesc (sel : Word) (f : Word → Exn) : M (Dword × Descriptor) := do
  let a ← descAddr sel f
  let d ← readDesc a
  pure (a, d)

/-- The byte of a descriptor that holds its A bit, if the bit is to be set (20_memory.md R137). -/
def locateAccessed (a : Dword) (d : Descriptor) : M (List Dword) :=
  if d.getLsbD 40 then pure [] else linLocate (a + 5) 1 true true

/-- Set the A bit in a located byte, a locked read-modify-write (20_memory.md R137, R183). -/
def markAccessed (ps : List Dword) : M Unit :=
  if ps.isEmpty then pure () else lockedModify ps fun v => (BitVec.ofNat 8 v ||| 1).toNat

/-- Set the A bit of a descriptor in memory unless it is set (20_memory.md R137). -/
def setAccessed (a : Dword) (d : Descriptor) : M Unit := do
  let ps ← locateAccessed a d
  markAccessed ps

/-- A segment register filled from a code or data descriptor (10_state.md R51, 20_memory.md R135). -/
def SegReg.ofDesc (sel : Word) (d : Descriptor) : SegReg :=
  { sel := sel, base := descBase d, limit := descLimit d, valid := true, present := descP d, dpl := descDpl d,
    code := descE d, readable := !descE d || descW d, writable := !descE d && descW d,
    expandDown := !descE d && descC d, conforming := descE d && descC d, big := d.getLsbD 54 }

/-- The 8086 segment base 16 * selector (20_memory.md R121). -/
def realBase (sel : Word) : Dword := sel.setWidth 32 <<< 4

/-- A Real Mode load: the selector and the base; the limit and the attributes stay (10_state.md R51, R53). A register
left null in Protected Mode becomes usable again: DEDUCED, unsafe (log 33). -/
def SegReg.loadReal (old : SegReg) (sel : Word) : SegReg := { old with sel := sel, base := realBase sel, valid := true }

/-- An 8086 load in Virtual 8086 Mode: fixed limit and attributes, privilege 3 (10_state.md R53). -/
def SegReg.v86 (sel : Word) : SegReg := { SegReg.real sel (realBase sel) with dpl := 3 }

/-- A register that names no segment (20_memory.md R135, 60_exceptions.md R660). -/
def SegReg.nullWith (old : SegReg) (sel : Word) : SegReg := { old with sel := sel, valid := false }

/-- LoadDataSeg; `f` is #GP, or #TS in a task switch (20_memory.md R135). -/
def loadDataSeg (sr : Sreg) (sel : Word) (f : Word → Exn) : M Unit := do
  let s ← get
  if selNull sel then setSeg sr ((s.segs.get sr).nullWith sel)
  else do
    let (a, d) ← findDesc sel f
    require (descS d && (!descE d || descW d)) (f (selCode sel))
    require (descConforming d || (decide (s.cpl ≤ descDpl d) && decide (selRpl sel ≤ descDpl d))) (f (selCode sel))
    require (descP d) (.np (selCode sel))
    setAccessed a d
    setSeg sr (SegReg.ofDesc sel d)

/-- LoadSS for the CPL that will be in force (20_memory.md R136). -/
def loadSS (sel : Word) (cpl : BitVec 2) : M Unit := do
  require (!selNull sel) (.gp 0)
  let (a, d) ← findDesc sel .gp
  require (selRpl sel == cpl) (.gp (selCode sel))
  require (descIsStack d) (.gp (selCode sel))
  require (descDpl d == cpl) (.gp (selCode sel))
  require (descP d) (.ss (selCode sel))
  setAccessed a d
  setSeg .ss (SegReg.ofDesc sel d)

/-- Load a segment register other than CS as MOV, POP and LDS do, by mode (40_data_transfer.md R307). -/
def loadSeg (sr : Sreg) (sel : Word) : M Unit := do
  let s ← get
  if s.protMode then (if sr = .ss then loadSS sel s.cpl else loadDataSeg sr sel .gp)
  else if s.cr0.pe then setSeg sr (SegReg.v86 sel)
  else setSeg sr ((s.segs.get sr).loadReal sel)

/-- After a load of SS interrupts and debug traps wait for one instruction (10_state.md R83). -/
def inhibitAfterSS (sr : Sreg) : M Unit :=
  if sr = .ss then modify fun s => { s with inhibit := true } else pure ()

/-- CommitCS, the A bit of the descriptor already set (45_control_transfer.md R481). -/
def commitCS (sel : Word) (d : Descriptor) (cpl : BitVec 2) : M Unit :=
  modify fun s =>
    { s with segs := { s.segs with cs := SegReg.ofDesc (selCode sel ||| cpl.setWidth 16) d }, cpl := cpl }

/-- The Real Mode or Virtual 8086 Mode load of CS without its limit check (45_control_transfer.md R476). -/
def loadCS8086 (sel : Word) : M Unit :=
  modify fun s =>
    { s with segs := { s.segs with cs := if s.cr0.pe then SegReg.v86 sel else s.segs.cs.loadReal sel } }

/-- FarLoad8086 with an offset already cut to the operand size (45_control_transfer.md R476). -/
def farLoad8086 (sel : Word) (off : Dword) : M Unit := do
  let s ← get
  require (decide (off ≤ s.segs.cs.limit)) (.gp 0)
  loadCS8086 sel
  jumpTo off

/-- The stack of an inner level: selector, descriptor with its address, and stack pointer
(45_control_transfer.md R482). -/
structure InnerStack where
  sel : Word
  addr : Dword
  desc : Descriptor
  esp : Dword

/-- InnerStack(p): read and checked, not loaded (45_control_transfer.md R482). -/
def innerStack (p : BitVec 2) : M InnerStack := do
  let s ← get
  let o := if s.tr.is386 then 4 + 8 * p.toNat else 2 + 4 * p.toNat
  require (decide (o + (if s.tr.is386 then 7 else 3) ≤ s.tr.limit.toNat)) (.ts (selCode s.tr.sel))
  let at_ := s.tr.base + BitVec.ofNat 32 o
  let espAt ← linLocate at_ (if s.tr.is386 then 4 else 2) false true
  let selAt ← linLocate (at_ + if s.tr.is386 then 4 else 2) 2 false true
  let esp : Dword ← BitVec.ofNat 32 <$> memRead espAt
  let sel : Word ← BitVec.ofNat 16 <$> memRead selAt
  require (!selNull sel) (.ts 0)
  let (a, d) ← findDesc sel .ts
  require (selRpl sel == p && descDpl d == p) (.ts (selCode sel))
  require (descIsStack d) (.ts (selCode sel))
  require (descP d) (.ss (selCode sel))
  pure { sel := sel, addr := a, desc := d, esp := esp }

/-- SS and (E)SP become the inner stack's: ESP when its B bit is 1, else SP only (45_control_transfer.md R484). The A
bit of the descriptor is already set. -/
def switchStack (i : InnerStack) : M Unit := do
  setSeg .ss (SegReg.ofDesc i.sel i.desc)
  setStackPtr i.esp

/-- ValidateDataSegs for one register (45_control_transfer.md R487). -/
def SegReg.validated (g : SegReg) (cpl : BitVec 2) : SegReg :=
  if g.valid && !(g.code && g.conforming) && decide (g.dpl < cpl) then { g with sel := 0, valid := false } else g

/-- ValidateDataSegs, at the new CPL (45_control_transfer.md R487). -/
def validateDataSegs : M Unit :=
  modify fun s =>
    { s with segs :=
      { s.segs with es := s.segs.es.validated s.cpl, ds := s.segs.ds.validated s.cpl,
                    fs := s.segs.fs.validated s.cpl, gs := s.segs.gs.validated s.cpl } }

/-- A 16-bit selector in a slot of an item width; the upper half of a 32-bit slot is a free value
(93_implementation_defined.md U24). -/
def selectorSlot (wide : Bool) (sel : Word) : M Nat :=
  if wide then do
    let hi ← draw 16
    pure (hi ++ sel).toNat
  else pure sel.toNat

end Sys2Proof.Machine
end

