-- ==== Sys2Proof/Machine/Tasks.lean ====
section
/-! DEFINITION. EFLAGS images and the task switch (10_state.md R44, 60_exceptions.md R670 to R674). -/

namespace Sys2Proof.Machine

/-- The image of EFLAGS: bit 1 is 1, the other reserved bits are 0 (10_state.md R30, R44). -/
def Flags.image (f : Flags) : Dword :=
  (0 : BitVec 14) ++ BitVec.ofBool f.vm ++ BitVec.ofBool f.rf ++ (0 : BitVec 1) ++ BitVec.ofBool f.nt ++ f.iopl ++
    BitVec.ofBool f.of ++ BitVec.ofBool f.df ++ BitVec.ofBool f.ifl ++ BitVec.ofBool f.tf ++ BitVec.ofBool f.sf ++
    BitVec.ofBool f.zf ++ (0 : BitVec 1) ++ BitVec.ofBool f.af ++ (0 : BitVec 1) ++ BitVec.ofBool f.pf ++
    (1 : BitVec 1) ++ BitVec.ofBool f.cf

/-- All defined flags of an image (10_state.md R30); reserved bits are ignored (R44). -/
def Flags.ofImage (v : Dword) : Flags :=
  { cf := v.getLsbD 0, pf := v.getLsbD 2, af := v.getLsbD 4, zf := v.getLsbD 6, sf := v.getLsbD 7,
    tf := v.getLsbD 8, ifl := v.getLsbD 9, df := v.getLsbD 10, of := v.getLsbD 11, iopl := v.extractLsb' 12 2,
    nt := v.getLsbD 14, rf := v.getLsbD 16, vm := v.getLsbD 17 }

/-- What brings a task switch about (60_exceptions.md R670). -/
inductive SwitchKind where
  | jmp
  | call
  | int
  | iret
deriving DecidableEq, Repr

/-- CALL and INT nest: they write the back link and set NT (60_exceptions.md R672). -/
def SwitchKind.nests : SwitchKind → Bool
  | .call | .int => true
  | .jmp | .iret => false

/-- The physical bytes of each TSS field given by (offset, length), as supervisor accesses. -/
def locateFields (base : Dword) (write : Bool) : List (Nat × Nat) → M (List (List Dword))
  | [] => pure []
  | (o, n) :: fs => do
    let p ← linLocate (base + BitVec.ofNat 32 o) n write true
    let ps ← locateFields base write fs
    pure (p :: ps)

/-- Read located fields. -/
def memReadAll : List (List Dword) → M (List Nat)
  | [] => pure []
  | p :: ps => do
    let v ← memRead p
    let vs ← memReadAll ps
    pure (v :: vs)

/-- The fields a switch out writes: EIP, EFLAGS, the eight registers and the selectors (60_exceptions.md R671). -/
def savedFields (is386 : Bool) : List (Nat × Nat) :=
  if is386 then
    (List.range 10).map (fun i => (0x20 + 4 * i, 4)) ++ (List.range 6).map (fun i => (0x48 + 4 * i, 4))
  else (List.range 14).map fun i => (0x0E + 2 * i, 2)

/-- The fields a switch in reads, in the order of 60_exceptions.md R670 phase 3: CR3 first for an Intel386 DX TSS, the
saved ones, as words where they are selectors, then LDT, and for an Intel386 DX TSS the T word (R671). -/
def loadedFields (is386 : Bool) : List (Nat × Nat) :=
  if is386 then
    (0x1C, 4) :: (List.range 10).map (fun i => (0x20 + 4 * i, 4)) ++ (List.range 6).map (fun i => (0x48 + 4 * i, 2)) ++
      [(0x60, 2), (0x64, 2)]
  else (List.range 14).map (fun i => (0x0E + 2 * i, 2)) ++ [(0x2A, 2)]

/-- The eight general registers in encoding order. -/
def Regs.toList (g : Regs) : List Dword := [g.eax, g.ecx, g.edx, g.ebx, g.esp, g.ebp, g.esi, g.edi]

/-- The selectors as the slots of an Intel386 DX TSS, with free upper words
(60_exceptions.md R671, 93_implementation_defined.md U24). -/
def selectorSlots : List Word → M (List Nat)
  | [] => pure []
  | w :: ws => do
    let v ← selectorSlot true w
    let vs ← selectorSlots ws
    pure (v :: vs)

/-- The values a switch out saves, in the order of `savedFields` (60_exceptions.md R670 phase 2). An 80286 TSS takes
the low halves and has no FS and GS. -/
def savedValues (is386 : Bool) (s : State) (fl : Flags) : M (List Nat) := do
  let plain := (s.eip :: fl.image :: s.regs.toList).map BitVec.toNat
  let sels := [s.segs.es.sel, s.segs.cs.sel, s.segs.ss.sel, s.segs.ds.sel]
  if is386 then do
    let slots ← selectorSlots (sels ++ [s.segs.fs.sel, s.segs.gs.sel])
    pure (plain ++ slots)
  else pure (plain.map (· % 65536) ++ sels.map BitVec.toNat)

/-- A general register loaded from a TSS: whole, or its low half with a free upper half
(60_exceptions.md R670, 93_implementation_defined.md U5). -/
def loadedReg (is386 : Bool) (v : Nat) : M Dword :=
  if is386 then pure (BitVec.ofNat 32 v)
  else do
    let hi ← draw 16
    pure (hi ++ BitVec.ofNat 16 v)

/-- The `k`-th loaded value. -/
def nthValue (vs : List Nat) (k : Nat) : Nat := vs.getD k 0

/-- Run after the commit point: exceptions are raised in the new task (60_exceptions.md R670, R673). -/
def inNewTask {α : Type} (x : M α) : M α := fun s =>
  match x s with
  | .error (.exn e) t => .error (.exnNew e) t
  | r => r

/-- Validation of LDTR (60_exceptions.md R670 phase 4). -/
def loadTaskLdt (ldt : Word) : M Unit :=
  if selNull ldt then pure ()
  else do
    require (!selTi ldt) (.ts (selCode ldt))
    let (_, d) ← findDesc ldt .ts
    require (!descS d && descType d == 2) (.ts (selCode ldt))
    require (descP d) (.ts (selCode ldt))
    modify fun s => { s with ldtr := { sel := ldt, valid := true, base := descBase d, limit := descLimit d } }

/-- Validation of CS (60_exceptions.md R670 phase 4). -/
def loadTaskCS (cs : Word) : M Unit := do
  require (!selNull cs) (.ts (selCode cs))
  let (a, d) ← findDesc cs .ts
  require (descIsCode d) (.ts (selCode cs))
  require (if descConforming d then decide (descDpl d ≤ selRpl cs) else descDpl d == selRpl cs) (.ts (selCode cs))
  require (descP d) (.np (selCode cs))
  setAccessed a d
  commitCS cs d (selRpl cs)

/-- Validation of SS (60_exceptions.md R670 phase 4). -/
def loadTaskSS (ss : Word) : M Unit := do
  let s ← get
  require (!selNull ss) (.ts (selCode ss))
  let (a, d) ← findDesc ss .ts
  require (selRpl ss == s.cpl && descDpl d == s.cpl && descIsStack d) (.ts (selCode ss))
  require (descP d) (.ss (selCode ss))
  setAccessed a d
  setSeg .ss (SegReg.ofDesc ss d)

/-- All six segment registers as 8086 loads of their selectors (60_exceptions.md R670, R674). -/
def loadTask8086 : M Unit :=
  modify fun s =>
    { s with segs := { es := SegReg.v86 s.segs.es.sel, cs := SegReg.v86 s.segs.cs.sel, ss := SegReg.v86 s.segs.ss.sel,
                       ds := SegReg.v86 s.segs.ds.sel, fs := SegReg.v86 s.segs.fs.sel,
                       gs := SegReg.v86 s.segs.gs.sel } }

/-- Phase 4 of a task switch: validate what phase 3 loaded, in order (60_exceptions.md R670). -/
def taskValidate (t : Bool) : M Unit := do
  let s ← get
  loadTaskLdt s.ldtr.sel
  if s.flags.vm then loadTask8086
  else do
    loadTaskCS s.segs.cs.sel
    loadTaskSS s.segs.ss.sel
    loadDataSeg .ds s.segs.ds.sel .ts
    loadDataSeg .es s.segs.es.sel .ts
    loadDataSeg .fs s.segs.fs.sel .ts
    loadDataSeg .gs s.segs.gs.sel .ts
  let u ← get
  require (decide (u.eip ≤ u.segs.cs.limit)) (.gp 0)
  if t then modify fun v => { v with pend := { v.pend with bt := true } } else pure ()

/-- Phase 3 of a task switch: load the incoming state from the values of `loadedFields`, of an Intel386 DX TSS that of
CR3 apart from the others. CPL becomes 3 with VM at once (60_exceptions.md R670, R673). -/
def taskLoad (is386 nests : Bool) (pageDir : Nat) (vs : List Nat) : M Unit := do
  let eax ← loadedReg is386 (nthValue vs 2)
  let ecx ← loadedReg is386 (nthValue vs 3)
  let edx ← loadedReg is386 (nthValue vs 4)
  let ebx ← loadedReg is386 (nthValue vs 5)
  let esp ← loadedReg is386 (nthValue vs 6)
  let ebp ← loadedReg is386 (nthValue vs 7)
  let esi ← loadedReg is386 (nthValue vs 8)
  let edi ← loadedReg is386 (nthValue vs 9)
  let sel := fun k => BitVec.ofNat 16 (nthValue vs k)
  let fl := Flags.ofImage (BitVec.ofNat 32 (nthValue vs 1))
  let cr3 := (BitVec.ofNat 32 pageDir).extractLsb' 12 20
  modify fun s =>
    { s with
      cr3 := if is386 then cr3 else s.cr3
      tlb := if is386 && decide (cr3 ≠ s.cr3) then List.replicate 32 none else s.tlb
      eip := BitVec.ofNat 32 (nthValue vs 0)
      flags := { fl with nt := fl.nt || nests }
      cpl := if fl.vm then 3 else s.cpl
      regs := { eax, ecx, edx, ebx, esp, ebp, esi, edi }
      segs := { es := s.segs.es.nullWith (sel 10), cs := s.segs.cs.nullWith (sel 11),
                ss := s.segs.ss.nullWith (sel 12), ds := s.segs.ds.nullWith (sel 13),
                fs := s.segs.fs.nullWith (if is386 then sel 14 else 0),
                gs := s.segs.gs.nullWith (if is386 then sel 15 else 0) }
      ldtr := { s.ldtr with sel := if is386 then sel 16 else sel 14, valid := false }
      prefetch := [] }

/-- The linear address of the byte of a GDT descriptor that holds its type. -/
def typeByteAddr (s : State) (sel : Word) : Dword := s.gdtr.base + selOffset sel + 5

/-- Change the type byte of a located descriptor by clearing and setting bits (the busy bit is bit 1,
60_exceptions.md R670), a locked read-modify-write (20_memory.md R183). -/
def changeTypeByte (ps : List Dword) (clear set_ : Byte) : M Unit :=
  lockedModify ps fun v => ((BitVec.ofNat 8 v &&& ~~~clear) ||| set_).toNat

/-- TaskSwitch(sel, d, kind) (60_exceptions.md R670): the caller has checked the descriptor and set EIP to the resume
point of the outgoing task. Every byte either phase touches is located first (R673, 92_eei_decisions.md D16), with
the page tables of the old task (log 24). The data breakpoints that the instruction has matched so far are noted under
the old DR7, before the switch clears bits of it (R683, R686, log 22). -/
def taskSwitch (sel : Word) (d : Descriptor) (kind : SwitchKind) : M Unit := do
  let s ← get
  let new386 := descType d == 9 || descType d == 11
  require (decide ((if new386 then 0x64 else 0x2B) < (descLimit d).toNat)) (.ts (selCode sel))
  let oldAt ← locateFields s.tr.base true (savedFields s.tr.is386)
  let newAt ← locateFields (descBase d) false (loadedFields new386)
  let linkAt ← if kind.nests then linLocate (descBase d) 2 true true else pure []
  let oldBusyAt ← if kind.nests then pure [] else linLocate (typeByteAddr s s.tr.sel) 1 true true
  let newBusyAt ← if kind = .iret then pure [] else linLocate (typeByteAddr s sel) 1 true true
  let fl := if kind = .iret then { s.flags with nt := false } else s.flags
  let saved ← savedValues s.tr.is386 s fl
  memWriteAll oldAt saved
  if kind.nests then pure () else changeTypeByte oldBusyAt 2 0
  if kind.nests then memWrite linkAt s.tr.sel.toNat else pure ()
  if kind = .iret then pure () else changeTypeByte newBusyAt 0 2
  let read ← memReadAll newAt
  let vs := if new386 then read.drop 1 else read
  modify State.noteHits
  modify fun u =>
    { u with
      dec := { u.dec with hits := 0 }
      tr := { sel := sel, base := descBase d, limit := descLimit d, is386 := new386 }
      cr0 := { u.cr0 with ts := true }
      dr7 := u.dr7 &&& ~~~(0x155 : Dword) }
  taskLoad new386 kind.nests (nthValue read 0) vs
  inNewTask (taskValidate (new386 && (BitVec.ofNat 16 (nthValue vs 17)).getLsbD 0))

end Sys2Proof.Machine
end

