-- ==== Sys2Proof/Machine/Ops.lean ====
section
/-! DEFINITION. Taking an exception or interrupt as one shared operation (60_exceptions.md R607 to R690), the return
from one beside it (45_control_transfer.md R486 to R489), and how a meaning becomes an outcome: completion
(60_exceptions.md R630) or a fault taken (R601). -/

namespace Sys2Proof.Machine

/-! Shutdown (60_exceptions.md R690). -/

/-- A segment register of three free values. -/
def SegReg.free (sel base limit : Dword) : SegReg :=
  { sel := sel.setWidth 16, base := base, limit := limit, valid := sel.getLsbD 16, present := sel.getLsbD 17,
    dpl := sel.extractLsb' 18 2, code := sel.getLsbD 20, readable := sel.getLsbD 21, writable := sel.getLsbD 22,
    expandDown := sel.getLsbD 23, conforming := sel.getLsbD 24, big := sel.getLsbD 25 }

/-- A segment register in shutdown, out of three free values `a`, `b`, `c`: such as the mode admits (10_state.md R53,
log 20). In Virtual 8086 Mode its limit and attributes are fixed; in Real Mode it is as it was, or as a Real Mode load of
any selector leaves it, which writes neither limit nor attributes (60_exceptions.md R610). -/
def SegReg.inShutdown (old : SegReg) (pe vm : Bool) (a b c : Dword) : SegReg :=
  if vm then SegReg.v86 (a.setWidth 16)
  else if pe then SegReg.free a b c
  else if a.getLsbD 16 then old.loadReal (a.setWidth 16)
  else old

/-- Shutdown: CS:EIP, the flags, the general registers, the segment registers and CPL become free values, since the
delivery that failed may or may not have changed them (93_implementation_defined.md U7, log 20); VM, CPL and the segment
registers stay such as the mode admits. In Real Mode SS and ESP stay as the interrupted program has them: a failed
delivery has pushed nothing (60_exceptions.md R607), and whether NMI can end the shutdown is asked of that SP (R690). -/
def State.shutDown (s : State) : State :=
  let any := fun k => Config.freeValue (s.free + k)
  let vm := s.cr0.pe && (any 1).getLsbD 17
  let seg := fun (old : SegReg) k => old.inShutdown s.cr0.pe vm (any k) (any (k + 1)) (any (k + 2))
  { s with
    run := .shutdown
    eip := any 0
    flags := { Flags.ofImage (any 1) with vm := vm }
    cpl := if vm then 3 else if s.cr0.pe then (any 1).extractLsb' 30 2 else 0
    regs := { eax := any 2, ecx := any 3, edx := any 4, ebx := any 5, esp := if s.cr0.pe then any 6 else s.regs.esp,
              ebp := any 7, esi := any 8, edi := any 9 }
    segs := { es := seg s.segs.es 10, cs := seg s.segs.cs 13, ss := if s.cr0.pe then seg s.segs.ss 16 else s.segs.ss,
              ds := seg s.segs.ds 19, fs := seg s.segs.fs 22, gs := seg s.segs.gs 25 }
    free := s.free + 28 }

/-- Enter shutdown (60_exceptions.md R690). The answer is that of a task switch: nothing follows the delivery. -/
def enterShutdown : M Bool := do
  modify State.shutDown
  pure true

/-! Delivery. Each delivery answers whether it went through a task gate. -/

/-- RealInterrupt(n, return) (60_exceptions.md R610). -/
def realInterrupt (n : Nat) (ret : Dword) : M Bool := do
  let s ← get
  if s.idtr.limit.toNat < 4 * n + 3 then
    if n = 8 ∨ n = 13 then enterShutdown else raise .df
  else do
    let frame ← locatePushes 2 3 1
    let off ← sysRead16 (s.idtr.base + BitVec.ofNat 32 (4 * n))
    let seg ← sysRead16 (s.idtr.base + BitVec.ofNat 32 (4 * n + 2))
    memWriteAll frame [(s.flags.image.extractLsb' 0 16).toNat, s.segs.cs.sel.toNat, (ret.extractLsb' 0 16).toNat]
    moveStackPtr (-6)
    modify fun u => { u with flags := { u.flags with ifl := false, tf := false, rf := false } }
    loadCS8086 seg
    jumpTo (off.setWidth 32)
    pure false

/-- The item that holds an error code: 32 or 16 bits wide, the upper half of 32 free
(60_exceptions.md R603, 93_implementation_defined.md U6). -/
def codeSlot (wide : Bool) : Option Word → M (List Nat)
  | none => pure []
  | some c => do
    let v ← selectorSlot wide c
    pure [v]

/-- InterruptTaskGate (60_exceptions.md R646). EFLAGS.RF is set to the image that the outgoing TSS receives
(R684). -/
def interruptTaskGate (g : Descriptor) (ret : Dword) (code : Option Word) (rfImage : Bool) : M Unit := do
  let sel := gateSelector g
  require (!selNull sel && !selTi sel) (.gp (selCode sel))
  let (_, d) ← findDesc sel .gp
  require (!descS d && (descType d == 1 || descType d == 9)) (.gp (selCode sel))
  require (descP d) (.np (selCode sel))
  modify fun s => { s with eip := ret, flags := { s.flags with rf := rfImage } }
  taskSwitch sel d .int
  match code with
  | none => pure ()
  | some c => inNewTask do
    let s ← get
    let v ← selectorSlot s.tr.is386 c
    pushAll (if s.tr.is386 then 4 else 2) [v]

/-- The flags in the handler: TF, NT, RF, VM clear, and IF through an interrupt gate (60_exceptions.md R643). -/
def Flags.inHandler (f : Flags) (interruptGate : Bool) : Flags :=
  { f with tf := false, nt := false, rf := false, vm := false, ifl := f.ifl && !interruptGate }

/-- V86Entry (60_exceptions.md R660), after the checks of R640. -/
def v86Entry (sel : Word) (a : Dword) (d : Descriptor) (off : Dword) (interruptGate : Bool) (image : Dword)
    (ret : Dword) (code : Option Word) : M Unit := do
  let inner ← innerStack 0
  let s ← get
  modify fun u => { u with flags := u.flags.inHandler interruptGate }
  switchStack inner
  commitCS sel d 0
  let gs ← selectorSlot true s.segs.gs.sel
  let fs ← selectorSlot true s.segs.fs.sel
  let ds ← selectorSlot true s.segs.ds.sel
  let es ← selectorSlot true s.segs.es.sel
  let ss ← selectorSlot true s.segs.ss.sel
  let cs ← selectorSlot true s.segs.cs.sel
  let c ← codeSlot true code
  let items := [gs, fs, ds, es, ss, s.regs.esp.toNat, image.toNat, cs, ret.toNat] ++ c
  requireRoom 4 items.length
  require (decide (off ≤ descLimit d)) (.gp 0)
  let frame ← locatePushes 4 items.length 1
  let ssAt ← locateAccessed inner.addr inner.desc
  let csAt ← locateAccessed a d
  markAccessed ssAt
  markAccessed csAt
  memWriteAll frame items
  moveStackPtr (-(BitVec.ofNat 32 (4 * items.length)))
  modify fun u =>
    { u with segs :=
      { u.segs with gs := u.segs.gs.nullWith 0, fs := u.segs.fs.nullWith 0, ds := u.segs.ds.nullWith 0,
                    es := u.segs.es.nullWith 0 } }
  jumpTo off

/-- An interrupt or trap gate to a more privileged level (60_exceptions.md R640). -/
def innerInterrupt (sel : Word) (a : Dword) (d : Descriptor) (off : Dword) (wide : Bool) (image : Dword) (ret : Dword)
    (code : Option Word) : M Unit := do
  let inner ← innerStack (descDpl d)
  let s ← get
  switchStack inner
  commitCS sel d (descDpl d)
  let ss ← selectorSlot wide s.segs.ss.sel
  let cs ← selectorSlot wide s.segs.cs.sel
  let c ← codeSlot wide code
  let items := [ss, s.regs.esp.toNat, image.toNat, cs, ret.toNat] ++ c
  let n := if wide then 4 else 2
  requireRoom n items.length
  require (decide (off ≤ descLimit d)) (.gp 0)
  let frame ← locatePushes n items.length 1
  let ssAt ← locateAccessed inner.addr inner.desc
  let csAt ← locateAccessed a d
  markAccessed ssAt
  markAccessed csAt
  memWriteAll frame items
  moveStackPtr (-(BitVec.ofNat 32 (n * items.length)))
  jumpTo off

/-- An interrupt or trap gate without a change of level (60_exceptions.md R640). -/
def sameLevelInterrupt (sel : Word) (a : Dword) (d : Descriptor) (off : Dword) (wide : Bool) (image : Dword)
    (ret : Dword) (code : Option Word) : M Unit := do
  let s ← get
  let cs ← selectorSlot wide s.segs.cs.sel
  let c ← codeSlot wide code
  let items := [image.toNat, cs, ret.toNat] ++ c
  let n := if wide then 4 else 2
  requireRoom n items.length
  require (decide (off ≤ descLimit d)) (.gp 0)
  let frame ← locatePushes n items.length 1
  setAccessed a d
  commitCS sel d s.cpl
  memWriteAll frame items
  moveStackPtr (-(BitVec.ofNat 32 (n * items.length)))
  jumpTo off

/-- GateInterrupt(n, software, return, code, rf_image) (60_exceptions.md R640). The EXT bit of the codes is added by
the caller (R604). -/
def gateInterrupt (n : Nat) (software : Bool) (ret : Dword) (code : Option Word) (rfImage : Bool) : M Bool := do
  let s ← get
  let idtCode : Word := BitVec.ofNat 16 (8 * n + 2)
  require (decide (8 * n + 7 ≤ s.idtr.limit.toNat)) (.gp idtCode)
  let g ← readDesc (s.idtr.base + BitVec.ofNat 32 (8 * n))
  let type := descType g
  require (!descS g && (type == 5 || type == 6 || type == 7 || type == 14 || type == 15)) (.gp idtCode)
  require (!software || decide (s.cpl ≤ descDpl g)) (.gp idtCode)
  require (descP g) (.np idtCode)
  if type = 5 then do
    interruptTaskGate g ret code rfImage
    pure true
  else do
    let wide := type == 14 || type == 15
    let interruptGate := type == 6 || type == 14
    let sel := gateSelector g
    let off := gateOffset g wide
    require (!selNull sel) (.gp 0)
    let (a, d) ← findDesc sel .gp
    require (descIsCode d) (.gp (selCode sel))
    require (decide (descDpl d ≤ s.cpl)) (.gp (selCode sel))
    require (descP d) (.np (selCode sel))
    let image := ({ s.flags with rf := rfImage } : Flags).image
    if s.flags.vm then do
      require (!descConforming d && descDpl d == 0) (.gp (selCode sel))
      if wide then v86Entry sel a d off interruptGate image ret code else refuse .v86Through286Gate
    else do
      if !descConforming d && decide (descDpl d < s.cpl) then innerInterrupt sel a d off wide image ret code
      else sameLevelInterrupt sel a d off wide image ret code
      modify fun u => { u with flags := u.flags.inHandler interruptGate }
    pure false

/-- Deliver without the second attempt of R618 (60_exceptions.md R607). -/
def deliverOnce (n : Nat) (software : Bool) (ret : Dword) (code : Option Word) (rfImage : Bool) : M Bool := do
  let s ← get
  if s.cr0.pe then gateInterrupt n software ret code rfImage else realInterrupt n ret

/-! What a fault leaves (60_exceptions.md R601). -/

/-- CR2 of a page fault, DR6.BD and DR7.GD of a debug register access (60_exceptions.md R617, R685). -/
def State.noteExn (s : State) : Exn → State
  | .pf lin _ _ _ => { s with cr2 := lin }
  | .db => { s with dr6 := { s.dr6 with bd := true }, dr7 := s.dr7 &&& ~~~(0x2000 : Dword) }
  | _ => s

/-- The state an attempt that began in `s` and raised `e` in `t` leaves: `s`, with the A and D bits, accessed bits and
TLB entries of `t` (60_exceptions.md R601), what the other masters wrote and the devices saw, the free values drawn, and
what `e` records. -/
def State.afterFault (s t : State) (e : Exn) : State :=
  ({ s with mem := t.mem, prefetch := t.prefetch, tlb := t.tlb, free := t.free, ioLog := t.ioLog,
            masters := t.masters } : State).noteExn e

/-- How an attempt at a delivery failed: the second exception, and whether it was raised in a new task. -/
structure Failure where
  exn : Exn
  inNew : Bool

/-- Try a delivery whose origin is an exception or an external interrupt: a failure leaves the interrupted state
(60_exceptions.md R607), and its selector-format code gets EXT (R604). After the commit point of a task switch it
leaves the new task's state (R673; log 21). No data breakpoint that the failed attempt matched stays recorded (R686). -/
def attempt (x : M Bool) : M (Except Failure Bool) := fun s =>
  match x s with
  | .ok b t => .ok (.ok b) t
  | .error (.exn e) t => .ok (.error ⟨e.withExt, false⟩) (s.afterFault t e)
  | .error (.exnNew e) t => .ok (.error ⟨e.withExt, true⟩) { t.noteExn e with dec := s.dec }
  | .error r t => .error r t

/-- The error code an exception pushes in Protected Mode; the undefined bits 15..3 of a page fault's are free
(60_exceptions.md R603, R617, 93_implementation_defined.md U6). -/
def errorCode : Exn → M (Option Word)
  | .df => pure (some 0)
  | .ts c => pure (some c)
  | .np c => pure (some c)
  | .ss c => pure (some c)
  | .gp c => pure (some c)
  | .pf _ p w u => do
    let hi ← draw 13
    pure (some (hi ++ BitVec.ofBool u ++ BitVec.ofBool w ++ BitVec.ofBool p))
  | _ => pure none

/-- The delivery of an exception of the processor's own; the image has RF = 1 (60_exceptions.md R684). -/
def exnOnce (e : Exn) (ret : Dword) : M Bool := do
  let code ← errorCode e
  deliverOnce e.vector false ret code true

/-- One attempt at it. -/
def tryExn (e : Exn) (ret : Dword) : M (Except Failure Bool) := attempt (exnOnce e ret)

/-- The return address of the exception that follows a failure: that of the first event, or the new task's EIP when a
task switch had been committed (60_exceptions.md R618, R673; log 21). -/
def nextReturn (f : Failure) (ret : Dword) : M Dword := do
  let s ← get
  pure (if f.inNew then s.eip else ret)

/-- Deliver an event whose failure is shutdown: any event of vector 8 (60_exceptions.md R618), the NMI that ends a
shutdown (R690). -/
def deliverLast (once : M Bool) : M Bool := do
  match ← attempt once with
  | .ok b => pure b
  | .error _ => enterShutdown

/-- Deliver(8, exception, 0, return, 1); a failure is shutdown (60_exceptions.md R618). -/
def deliverDouble (ret : Dword) : M Bool := deliverLast (exnOnce .df ret)

/-- The page fault met while delivering a page fault: vector 14 once more, then shutdown (60_exceptions.md R618). -/
def deliverSecondPage (e : Exn) (ret : Dword) : M Bool := deliverLast (exnOnce e ret)

/-- Deliver exception 14 (60_exceptions.md R618). -/
def deliverPage (e : Exn) (ret : Dword) : M Bool := do
  match ← tryExn e ret with
  | .ok b => pure b
  | .error f => do
    let r ← nextReturn f ret
    match f.exn with
    | .pf _ _ _ _ => deliverSecondPage f.exn r
    | _ => deliverDouble r

/-- Deliver one of exceptions 10 to 13 (60_exceptions.md R618). -/
def deliverSegment (e : Exn) (ret : Dword) : M Bool := do
  match ← tryExn e ret with
  | .ok b => pure b
  | .error f => do
    let r ← nextReturn f ret
    match f.exn with
    | .pf _ _ _ _ => deliverPage f.exn r
    | _ => deliverDouble r

/-- Escalate's last arm: the second exception as an ordinary one (60_exceptions.md R618). A delivery raises only
exceptions 8 and 10 to 14. -/
def deliverSecond (e : Exn) (ret : Dword) : M Bool :=
  match e with
  | .df => deliverDouble ret
  | .pf _ _ _ _ => deliverPage e ret
  | _ => deliverSegment e ret

/-- Deliver an event that escalates nothing: an external interrupt of another vector than 8, a debug trap, or one of
exceptions 0 to 7, 9, 16 (60_exceptions.md R607, R618). -/
def deliverPlain (once : M Bool) (ret : Dword) : M Bool := do
  match ← attempt once with
  | .ok b => pure b
  | .error f => do
    let r ← nextReturn f ret
    deliverSecond f.exn r

/-- Deliver an exception raised by an instruction or its fetch, with its escalations (60_exceptions.md R601, R618). -/
def deliverExn (e : Exn) (ret : Dword) : M Bool :=
  match e with
  | .df => deliverDouble ret
  | .pf _ _ _ _ => deliverPage e ret
  | .ts _ | .np _ | .ss _ | .gp _ => deliverSegment e ret
  | _ => deliverPlain (deliverOnce e.vector false ret none true) ret

/-! From a meaning to an outcome. -/

/-- How a completed instruction ends its step: `plain`; `keepRf` leaves EFLAGS.RF alone (IRET, POPF, an unfinished
repetition: log 46); `silent` also arms no single-step trap: a software interrupt, a task switch, a WAIT still waiting
(60_exceptions.md R630, R682, 10_state.md R42). -/
inductive Done where
  | plain
  | keepRf
  | silent
deriving DecidableEq, Repr

/-- The state after an instruction that began in `s` and completed in `t` (60_exceptions.md R630): RF is cleared, the
single-step trap armed if TF was set at the start (R682), and nothing is in progress any more. -/
def State.finish (s t : State) (d : Done) : State :=
  let u := t.noteHits
  { u with
    flags := { u.flags with rf := if d = .plain then false else u.flags.rf }
    pend := { u.pend with bs := u.pend.bs || (s.flags.tf && decide (d ≠ .silent)) }
    dec := InProgress.empty }

/-- The state with nothing in progress. -/
def State.idle (s : State) : State := { s with dec := InProgress.empty }

/-- What a step or a meaning answers. -/
abbrev Result := Host.Outcome State Fault Refusal

/-- The outcome of a delivery. -/
def delivered (x : M Bool) (s : State) : Result :=
  match x s with
  | .ok _ t => .next t.idle
  | .error (.fault f) _ => .fault f
  | .error (.refused r) _ => .refused r
  | .error (.exn e) t => .next (t.noteExn e).idle
  | .error (.exnNew e) t => .next (t.noteExn e).idle

/-- Take an exception that an instruction begun in `s` raised in `t`: its effects are discarded but for what R601
lists, EIP is the instruction's, and the exception is delivered (60_exceptions.md R601). -/
def takeExn (s t : State) (e : Exn) : Result :=
  delivered (deliverExn e s.eip) (s.afterFault t e).idle

/-- Take an exception raised in the new task after a task switch was committed (60_exceptions.md R673). -/
def takeExnNew (t : State) (e : Exn) : Result :=
  delivered (deliverExn e t.eip) (t.noteExn e).idle

/-- The outcome of something begun in `s` that stopped short in `t`: an exception taken, or a stop of the model
(60_exceptions.md R630). -/
def stopped (s t : State) : Trap → Result
  | .exn e => takeExn s t e
  | .exnNew e => takeExnNew t e
  | .fault f => .fault f
  | .refused r => .refused r

/-- The outcome of an instruction: its completion, the exception it takes, or a stop (60_exceptions.md R630). -/
def runInstr (body : M Done) (s : State) : Result :=
  match body s with
  | .ok d t => .next (s.finish t d)
  | .error e t => stopped s t e

/-- An instruction that ends by advancing EIP past itself (40_data_transfer.md R300). -/
def runSimple (body : M Unit) (s : State) : Result :=
  runInstr (do body; advance; pure .plain) s

/-! Privilege and mode checks at decode (60_exceptions.md R630 step 6). -/

/-- The instructions that exist only in Protected Mode (30_encoding.md R247, 60_exceptions.md R664). The mode is that
of CR0 and EFLAGS now, so the first of them after PE is set already executes in Protected Mode, before any jump: the
model's choice (70_reset_and_hazards.md R715, log 28). -/
def requireProtected : M Unit := do
  let s ← get
  require s.protMode .ud

/-- The privileged instructions: #GP(0) at CPL > 0 with PE = 1 (47_protection_model.md R510). -/
def requirePrivileged : M Unit := do
  let s ← get
  require (!s.cr0.pe || s.cpl == 0) (.gp 0)

/-! Software interrupts (45_control_transfer.md R490, 60_exceptions.md R612). -/

/-- Deliver a software interrupt with the next instruction as return address. A failure of the delivery is a fault of
the instruction itself (60_exceptions.md R612), also for INT 8: the model's choice between R612 and R618 (log 11). -/
def softwareInterrupt (n : Nat) : M Done := do
  let s ← get
  let _ ← deliverOnce n true s.nextEip none s.flags.rf
  pure .silent

/-! Returns (45_control_transfer.md R486 to R489). -/

/-- "check that SS:(E)SP .. + n - 1 is inside the stack limit", else #SS(0). -/
def requireStack (n : Nat) : M Unit := do
  let s ← get
  match segCheck s.segs.ss (.ss 0) s.stackPtr n false with
  | some e => raise e
  | none => pure ()

/-- The width of the stack items of an operand size. -/
def itemBytes (os32 : Bool) : Nat := if os32 then 4 else 2

/-- The stack item `at_` bytes above the stack pointer as a number. -/
def stackItem (n at_ : Nat) : M Nat := do
  let ps ← popLocate n at_
  memRead ps

/-- The bytes of `count` successive stack items of `n` bytes, the first `at_` bytes above the stack pointer. -/
def locateItems (n : Nat) : (count at_ : Nat) → M (List (List Dword))
  | 0, _ => pure []
  | c + 1, k => do
    let p ← popLocate n k
    let ps ← locateItems n c (k + n)
    pure (p :: ps)

/-- Those items as numbers: every item is checked before any is read (92_eei_decisions.md D6). -/
def stackItems (n count at_ : Nat) : M (List Nat) := do
  let ls ← locateItems n count at_
  memReadAll ls

/-- ReturnCS(sel, off, frame_items, release) (45_control_transfer.md R486): also how IRET returns (R489). -/
def returnCS (sel : Word) (off : Dword) (items release : Nat) : M Unit := do
  let s ← get
  let z := itemBytes s.os32
  require (!selNull sel) (.gp 0)
  let (a, d) ← findDesc sel .gp
  let rpl := selRpl sel
  require (descIsCode d) (.gp (selCode sel))
  require (decide (s.cpl ≤ rpl)) (.gp (selCode sel))
  require (if descConforming d then decide (descDpl d ≤ rpl) else descDpl d == rpl) (.gp (selCode sel))
  require (descP d) (.np (selCode sel))
  if rpl = s.cpl then do
    require (decide (off ≤ descLimit d)) (.gp 0)
    setAccessed a d
    moveStackPtr (BitVec.ofNat 32 (items * z + release))
    commitCS sel d s.cpl
    jumpTo off
  else do
    requireStack ((items + 2) * z + release)
    let outer ← stackItems z 2 (items * z + release)
    let nesp := nthValue outer 0
    let nss : Word := BitVec.ofNat 16 (nthValue outer 1)
    require (!selNull nss) (.gp 0)
    let (b, sd) ← findDesc nss .gp
    require (selRpl nss == rpl && descDpl sd == rpl) (.gp (selCode nss))
    require (descIsStack sd) (.gp (selCode nss))
    require (descP sd) (.ss (selCode nss))
    require (decide (off ≤ descLimit d)) (.gp 0)
    let csAt ← locateAccessed a d
    let ssAt ← locateAccessed b sd
    markAccessed csAt
    markAccessed ssAt
    commitCS sel d rpl
    jumpTo off
    setSeg .ss (SegReg.ofDesc nss sd)
    let hi ← if !s.os32 && sd.getLsbD 54 then draw 16 else pure 0
    setStackPtr (if s.os32 then BitVec.ofNat 32 nesp else hi ++ BitVec.ofNat 16 nesp)
    moveStackPtr (BitVec.ofNat 32 release)
    validateDataSegs

/-- EFLAGS popped by IRET: IF and IOPL by the CPL `c` and the IOPL before the return; a 32-bit image loads RF, a
16-bit one clears it; VM stays (45_control_transfer.md R488, R489, 10_state.md R45). `real` is Real Mode. -/
def Flags.popped (f : Flags) (v : Dword) (os32 real : Bool) (c : BitVec 2) : Flags :=
  { Flags.ofImage v with
    ifl := if real || decide (c ≤ f.iopl) then v.getLsbD 9 else f.ifl
    iopl := if real || c == 0 then v.extractLsb' 12 2 else f.iopl
    rf := os32 && v.getLsbD 16
    vm := f.vm }

/-- IRET in Real Mode and in Virtual 8086 Mode: room for all three items is checked before they are read
(45_control_transfer.md R488). NMI is no longer in service once the
instruction completes; one that faults keeps it in service: the model's choice (log 42). -/
def iret8086 : M Done := do
  let s ← get
  require (!s.flags.vm || s.flags.iopl == 3) (.gp 0)
  let z := itemBytes s.os32
  requireStack (3 * z)
  let vs ← stackItems z 3 0
  farLoad8086 (BitVec.ofNat 16 (nthValue vs 1)) (BitVec.ofNat 32 (nthValue vs 0))
  moveStackPtr (BitVec.ofNat 32 (3 * z))
  let image : Dword := BitVec.ofNat 32 (nthValue vs 2)
  modify fun u =>
    { u with flags := s.flags.popped image s.os32 (!s.cr0.pe) s.cpl, nmiInService := false }
  pure .keepRf

/-- ReturnToV86 (45_control_transfer.md R489). -/
def returnToV86 (off : Dword) (sel : Word) (fl : Dword) : M Unit := do
  requireStack 36
  let vs ← stackItems 4 6 12
  let seg := fun (k : Nat) => SegReg.v86 (BitVec.ofNat 16 (nthValue vs k))
  modify fun s =>
    { s with
      flags := Flags.ofImage fl
      segs := { es := seg 2, cs := SegReg.v86 sel, ss := seg 1, ds := seg 3, fs := seg 4, gs := seg 5 }
      regs := { s.regs with esp := BitVec.ofNat 32 (nthValue vs 0) }
      cpl := 3 }
  jumpTo (off &&& 0xFFFF)

/-- IRET with NT = 1: the task switch through the back link (45_control_transfer.md R489). -/
def iretTask : M Unit := do
  let s ← get
  let sel ← sysRead16 s.tr.base
  require (!selNull sel && !selTi sel) (.ts (selCode sel))
  let (_, d) ← findDesc sel .ts
  require (!descS d && (descType d == 3 || descType d == 11)) (.ts (selCode sel))
  require (descP d) (.np (selCode sel))
  advance
  taskSwitch sel d .iret

/-- NMI is no longer in service once IRET has executed (10_state.md R82). -/
def endNmi : M Unit := modify fun s => { s with nmiInService := false }

/-- IRET in Protected Mode (45_control_transfer.md R489). One that faults keeps NMI in service: the model's choice
(log 42). -/
def iretProtected : M Done := do
  let s ← get
  if s.flags.nt then do
    endNmi
    iretTask
    pure .silent
  else do
    let z := itemBytes s.os32
    requireStack (3 * z)
    let vs ← stackItems z 3 0
    let off : Dword := BitVec.ofNat 32 (nthValue vs 0)
    let sel : Word := BitVec.ofNat 16 (nthValue vs 1)
    let image : Dword := BitVec.ofNat 32 (nthValue vs 2)
    if s.os32 && image.getLsbD 17 && s.cpl == 0 then returnToV86 off sel image
    else do
      returnCS sel off 3 0
      modify fun u => { u with flags := s.flags.popped image s.os32 false s.cpl }
    endNmi
    pure .keepRf

/-- The return from an interrupt or exception, in every mode (45_control_transfer.md R488, R489). -/
def interruptReturn : M Done := do
  let s ← get
  if s.protMode then iretProtected else iret8086

end Sys2Proof.Machine
end

