-- ==== Sys2Proof/Machine/Operands.lean ====
section
/-! DEFINITION. Every operand form of 30_encoding.md R211 to R220: effective addresses, register or memory operands,
direct offsets, far pointers, immediates, string elements, ports. -/

namespace Sys2Proof.Machine

/-! Effective addresses (30_encoding.md R212 to R215). -/

/-- The low half of a register. -/
def Regs.low (g : Regs) (r : Reg) : Word := (g.get r).extractLsb' 0 16

/-- The register part of a 16-bit address (30_encoding.md R212). -/
def baseValue (g : Regs) : Base16 → Word
  | .bxsi => g.low .ebx + g.low .esi
  | .bxdi => g.low .ebx + g.low .edi
  | .bpsi => g.low .ebp + g.low .esi
  | .bpdi => g.low .ebp + g.low .edi
  | .si => g.low .esi
  | .di => g.low .edi
  | .bp => g.low .ebp
  | .bx => g.low .ebx

/-- The offset of a memory operand (30_encoding.md R212 to R214). -/
def eaOffset (g : Regs) : EA → Dword
  | .mem16 none d => d.setWidth 32
  | .mem16 (some b) d => (baseValue g b + d).setWidth 32
  | .mem32 base index d =>
    (match base with
      | none => 0
      | some r => g.get r) +
    (match index with
      | none => 0
      | some (r, scale) => g.get r <<< scale.toNat) + d

/-- The default segment of a memory operand: SS with base BP, EBP or ESP, else DS (30_encoding.md R212 to R214). -/
def eaDefault : EA → Sreg
  | .mem16 (some .bpsi) _ => .ss
  | .mem16 (some .bpdi) _ => .ss
  | .mem16 (some .bp) _ => .ss
  | .mem32 (some .ebp) _ _ => .ss
  | .mem32 (some .esp) _ _ => .ss
  | _ => .ds

/-- An offset modulo 2^AS (30_encoding.md R215). -/
def State.asWrap (s : State) (v : Dword) : Dword := if s.as32 then v else (v.extractLsb' 0 16).setWidth 32

/-- The bytes of the part of `n` bytes that starts `k` bytes into a memory operand (30_encoding.md R215). -/
def locateEa (ea : EA) (k n : Nat) (write : Bool) : M (List Dword) := do
  let s ← get
  segLocate (s.segFor (eaDefault ea)) (s.asWrap (eaOffset s.regs ea + BitVec.ofNat 32 k)) n write

/-- Read the two parts of a memory operand, `n` bytes and then `m` bytes: both are checked before either is read
(92_eei_decisions.md D6). -/
def readParts (ea : EA) (n m : Nat) : M (Nat × Nat) := do
  let ps ← locateEa ea 0 n false
  let qs ← locateEa ea n m false
  let a ← memRead ps
  let b ← memRead qs
  pure (a, b)

/-! Register or memory operands (40_data_transfer.md R300, R301). -/

/-- Where an operand is: a register, or bytes of memory whose checks are made. -/
inductive Place where
  | reg (r : Reg)
  | mem (ps : List Dword)
deriving DecidableEq, Repr

/-- Find an r/m operand. With `write` every check of a write is made (40_data_transfer.md R301). -/
def locate (w : Width) (rm : Rm) (write : Bool) : M Place :=
  match rm with
  | .reg r => pure (.reg r)
  | .mem ea => Place.mem <$> locateEa ea 0 w.bytes write

/-- The bytes of memory a place has. -/
def Place.bytes : Place → List Dword
  | .reg _ => []
  | .mem ps => ps

/-- The contents of a place, memory as it stands (a read cycle shows them where RAM answers). -/
def State.placeValue (s : State) (w : Width) : Place → BitVec w.bits
  | .reg r => s.regs.read w r
  | .mem ps => BitVec.ofNat w.bits (s.mem.readAt ps)

/-- The state with the contents of a place written. -/
def State.withPlace (s : State) (w : Width) (p : Place) (v : BitVec w.bits) : State :=
  match p with
  | .reg r => s.withReg w r v
  | .mem ps => s.putBytes ps v.toNat

/-- Read a place (40_data_transfer.md R300). -/
def getPlace (w : Width) (p : Place) : M (BitVec w.bits) :=
  match p with
  | .reg r => getReg w r
  | .mem ps => do
    let v ← memRead ps
    pure (BitVec.ofNat w.bits v)

/-- Read a place that the instruction goes on to write; `lock` asserts LOCK# until the instruction ends
(20_memory.md R182). -/
def getPlaceToWrite (w : Width) (lock : Bool) (p : Place) : M (BitVec w.bits) := do
  if lock then assertLock else pure ()
  getPlace w p

/-- Write a place (40_data_transfer.md R300). -/
def putPlace (w : Width) (p : Place) (v : BitVec w.bits) : M Unit :=
  match p with
  | .reg r => setReg w r v
  | .mem ps => memWrite ps v.toNat

/-- RdRM (40_data_transfer.md R300). -/
def readRm (w : Width) (rm : Rm) : M (BitVec w.bits) := do
  let p ← locate w rm false
  getPlace w p

/-- WrRM (40_data_transfer.md R300). -/
def writeRm (w : Width) (rm : Rm) (v : BitVec w.bits) : M Unit := do
  let p ← locate w rm true
  putPlace w p v

/-- A 16-bit value to r/m16: 16 bits to memory, or to a register, where with OS = 32 bits 31..16 become a free value
(93_implementation_defined.md U24). -/
def writeRm16 (rm : Rm) (v : Word) : M Unit := do
  let s ← get
  match rm with
  | .reg r =>
    if s.os32 then do
      let hi ← draw 16
      setReg .w32 r (hi ++ v)
    else setReg .w16 r v
  | .mem _ => writeRm .w16 rm v

/-- An immediate of OS bits cut to a width (30_encoding.md R217). -/
def immV (w : Width) (imm : Dword) : BitVec w.bits := imm.setWidth w.bits

/-- A byte immediate sign-extended to a width (30_encoding.md R217). -/
def immS (w : Width) (imm : Byte) : BitVec w.bits := imm.signExtend w.bits

/-- A far pointer in memory: the offset at EA, the selector after it (45_control_transfer.md R477,
40_data_transfer.md R331). -/
def readFar (ea : EA) : M (Word × Dword) := do
  let s ← get
  let (off, sel) ← readParts ea s.vWidth.bytes 2
  pure (BitVec.ofNat 16 sel, BitVec.ofNat 32 off)

/-- The bytes of a direct offset (30_encoding.md R218). -/
def locateMoffs (off : Dword) (n : Nat) (write : Bool) : M (List Dword) := do
  let s ← get
  segLocate (s.segFor .ds) (s.asWrap off) n write

/-! Registers by the address size, and string elements (42_string.md R400). -/

/-- A register as an address or count: 32 bits, or its low half zero-extended (30_encoding.md R207). -/
def State.asReg (s : State) (r : Reg) : Dword := s.asWrap (s.regs.get r)

/-- A register written by the address size: whole, or its low half (42_string.md R400). -/
def State.asSet (s : State) (r : Reg) (v : Dword) : Regs :=
  s.regs.set r (if s.as32 then v else setLow16 (s.regs.get r) (v.extractLsb' 0 16))

/-- Add to a register by the address size. -/
def addAsReg (r : Reg) (v : Dword) : M Unit := modify fun s => { s with regs := s.asSet r (s.regs.get r + v) }

/-- The step of a string pointer: up or down by DF (42_string.md R400). -/
def State.delta (s : State) (w : Width) : Dword :=
  if s.flags.df then -(BitVec.ofNat 32 w.bytes) else BitVec.ofNat 32 w.bytes

/-- adv(R) (42_string.md R400). -/
def stepPointer (w : Width) (r : Reg) : M Unit := do
  let s ← get
  addAsReg r (s.delta w)

/-- The source element (42_string.md R400). -/
def locateSource (w : Width) : M (List Dword) := do
  let s ← get
  segLocate (s.segFor .ds) (s.asReg .esi) w.bytes false

/-- The destination element, in ES (42_string.md R400). -/
def locateDest (w : Width) (write : Bool) : M (List Dword) := do
  let s ← get
  segLocate .es (s.asReg .edi) w.bytes write

/-- Located bytes as a value of a width. -/
def readValue (w : Width) (ps : List Dword) : M (BitVec w.bits) := do
  let v ← memRead ps
  pure (BitVec.ofNat w.bits v)

/-- The port in DX (20_memory.md R171). -/
def State.portDx (s : State) : Nat := (s.regs.low .edx).toNat

/-- AH: byte register 4 (10_state.md R23). -/
abbrev regAh : Reg := .esp

/-! The flags. -/

/-- Write the flags. -/
def setFlags (f : Flags) : M Unit := modify fun s => { s with flags := f }

/-- Change the flags. -/
def updateFlags (f : Flags → Flags) : M Unit := modify fun s => { s with flags := f s.flags }

end Sys2Proof.Machine
end

