-- ==== Sys2Proof/Machine/Flags.lean ====
section
/-! DEFINITION. Every flag computation of the spec: additions and subtractions, logic, shifts and rotates, products,
decimal adjustment, conditions (41_arithmetic.md R360, 43_logical_shift_rotate.md, 30_encoding.md R219). -/

namespace Sys2Proof.Machine

/-! The status flags of a result. -/

/-- PF: an even number of 1 bits in the low byte (00_scope.md R13). -/
def evenParity (b : Byte) : Bool :=
  !(b.getLsbD 0 ^^ b.getLsbD 1 ^^ b.getLsbD 2 ^^ b.getLsbD 3 ^^ b.getLsbD 4 ^^ b.getLsbD 5 ^^ b.getLsbD 6 ^^ b.getLsbD 7)

/-- SZP(r) (41_arithmetic.md R360). -/
def Flags.szp {n : Nat} (f : Flags) (r : BitVec n) : Flags :=
  { f with sf := r.msb, zf := r == 0, pf := evenParity (r.setWidth 8) }

/-- a + b + c (41_arithmetic.md R360). -/
def addValue {n : Nat} (a b : BitVec n) (c : Bool) : BitVec n := a + b + BitVec.ofNat n c.toNat

/-- The flags of AddFlags (41_arithmetic.md R360). -/
def Flags.adding {n : Nat} (f : Flags) (a b : BitVec n) (c : Bool) : Flags :=
  { f.szp (addValue a b c) with
    cf := decide (2 ^ n ≤ a.toNat + b.toNat + c.toNat)
    af := decide (16 ≤ a.toNat % 16 + b.toNat % 16 + c.toNat)
    of := a.msb == b.msb && (addValue a b c).msb != a.msb }

/-- a - b - c (41_arithmetic.md R360). -/
def subValue {n : Nat} (a b : BitVec n) (c : Bool) : BitVec n := a - b - BitVec.ofNat n c.toNat

/-- The flags of SubFlags (41_arithmetic.md R360). -/
def Flags.subtracting {n : Nat} (f : Flags) (a b : BitVec n) (c : Bool) : Flags :=
  { f.szp (subValue a b c) with
    cf := decide (a.toNat < b.toNat + c.toNat)
    af := decide (a.toNat % 16 < b.toNat % 16 + c.toNat)
    of := a.msb != b.msb && (subValue a b c).msb != a.msb }

/-- LogicFlags, with AF a free value (43_logical_shift_rotate.md R420, 93_implementation_defined.md U25). -/
def Flags.logical {n : Nat} (f : Flags) (r : BitVec n) (af : Bool) : Flags :=
  { f.szp r with cf := false, of := false, af := af }

/-! Two-operand operations: they answer the result and write the flags. -/

/-- A two-operand operation of any width (41_arithmetic.md R361). -/
abbrev Binary := {n : Nat} → BitVec n → BitVec n → M (BitVec n)

/-- ADD (41_arithmetic.md R362). -/
def opAdd : Binary := fun a b => do
  updateFlags fun f => f.adding a b false
  pure (addValue a b false)

/-- ADC (41_arithmetic.md R363). -/
def opAdc : Binary := fun a b => do
  let s ← get
  setFlags (s.flags.adding a b s.flags.cf)
  pure (addValue a b s.flags.cf)

/-- SUB, CMP, NEG, CMPS, SCAS (41_arithmetic.md R367, R370, R371). -/
def opSub : Binary := fun a b => do
  updateFlags fun f => f.subtracting a b false
  pure (subValue a b false)

/-- SBB (41_arithmetic.md R368). -/
def opSbb : Binary := fun a b => do
  let s ← get
  setFlags (s.flags.subtracting a b s.flags.cf)
  pure (subValue a b s.flags.cf)

/-- The flags of a logical result (43_logical_shift_rotate.md R420). -/
def logicResult {n : Nat} (r : BitVec n) : M (BitVec n) := do
  let af ← drawBool
  updateFlags fun f => f.logical r af
  pure r

/-- AND, TEST (43_logical_shift_rotate.md R422, R425). -/
def opAnd : Binary := fun a b => logicResult (a &&& b)

/-- OR (43_logical_shift_rotate.md R423). -/
def opOr : Binary := fun a b => logicResult (a ||| b)

/-- XOR (43_logical_shift_rotate.md R424). -/
def opXor : Binary := fun a b => logicResult (a ^^^ b)

/-! One-operand operations. -/

/-- A one-operand operation of any width. -/
abbrev Unary := {n : Nat} → BitVec n → M (BitVec n)

/-- INC: CF stays (41_arithmetic.md R364). -/
def opInc : Unary := fun a => do
  updateFlags fun f => { f.adding a 1 false with cf := f.cf }
  pure (addValue a 1 false)

/-- DEC: CF stays (41_arithmetic.md R369). -/
def opDec : Unary := fun a => do
  updateFlags fun f => { f.subtracting a 1 false with cf := f.cf }
  pure (subValue a 1 false)

/-- NEG (41_arithmetic.md R370). -/
def opNeg : Unary := fun a => opSub 0 a

/-- NOT: no flags (43_logical_shift_rotate.md R421). -/
def opNot : Unary := fun a => pure (~~~a)

/-! Shifts and rotates (43_logical_shift_rotate.md R430 to R443): the result for a count of at least 1, CF, and the OF
that a count of 1 gives. -/

/-- What a shift or rotate gives. -/
structure Shifted (n : Nat) where
  value : BitVec n
  cf : Bool
  of1 : Bool

/-- A shift or rotate of any width by a count of 1 to 31, given CF. -/
abbrev Shift := {n : Nat} → Bool → BitVec n → Nat → Shifted n

/-- SHL (43_logical_shift_rotate.md R431). -/
def shiftShl : Shift := fun {n} _ a c =>
  let r := a <<< c
  let cf := decide (c ≤ n) && a.getLsbD (n - c)
  { value := r, cf := cf, of1 := r.msb ^^ cf }

/-- SHR (43_logical_shift_rotate.md R432). -/
def shiftShr : Shift := fun {n} _ a c =>
  { value := a >>> c, cf := decide (c ≤ n) && a.getLsbD (c - 1), of1 := a.msb }

/-- SAR (43_logical_shift_rotate.md R433). -/
def shiftSar : Shift := fun {n} _ a c =>
  { value := a.sshiftRight c, cf := if c ≤ n then a.getLsbD (c - 1) else a.msb, of1 := false }

/-- ROL (43_logical_shift_rotate.md R440). -/
def shiftRol : Shift := fun _ a c =>
  let r := a.rotateLeft c
  { value := r, cf := r.getLsbD 0, of1 := r.msb ^^ r.getLsbD 0 }

/-- ROR (43_logical_shift_rotate.md R441). -/
def shiftRor : Shift := fun {n} _ a c =>
  let r := a.rotateRight c
  { value := r, cf := r.msb, of1 := r.msb ^^ r.getLsbD (n - 2) }

/-- RCL: CF ++ a rotated left (43_logical_shift_rotate.md R442). -/
def shiftRcl : Shift := fun {n} cf a c =>
  let x := (BitVec.cons cf a).rotateLeft c
  let r : BitVec n := x.setWidth n
  { value := r, cf := x.msb, of1 := r.msb ^^ x.msb }

/-- RCR: CF ++ a rotated right (43_logical_shift_rotate.md R443). -/
def shiftRcr : Shift := fun {n} cf a c =>
  let x := (BitVec.cons cf a).rotateRight c
  let r : BitVec n := x.setWidth n
  { value := r, cf := x.msb, of1 := r.msb ^^ r.getLsbD (n - 2) }

/-- The OF of a shift or rotate: defined for a count of 1, else a free value (43_logical_shift_rotate.md R430). -/
def shiftOf (c : Nat) (of1 : Bool) : M Bool := if c = 1 then pure of1 else drawBool

/-- The flags of a shift: CF, OF, SF, ZF, PF, and AF free (43_logical_shift_rotate.md R431). -/
def finishShift {n : Nat} (c : Nat) (r : Shifted n) : M (BitVec n) := do
  let of_ ← shiftOf c r.of1
  let af ← drawBool
  updateFlags fun f => { f.szp r.value with cf := r.cf, of := of_, af := af }
  pure r.value

/-- The flags of a rotate: CF and OF only (43_logical_shift_rotate.md R440). -/
def finishRotate {n : Nat} (c : Nat) (r : Shifted n) : M (BitVec n) := do
  let of_ ← shiftOf c r.of1
  updateFlags fun f => { f with cf := r.cf, of := of_ }
  pure r.value

/-- SHLD for a count of 1 to the width (43_logical_shift_rotate.md R434). -/
def doubleLeft {n : Nat} (a b : BitVec n) (c : Nat) : Shifted n :=
  let r := (a <<< c) ||| (b >>> (n - c))
  { value := r, cf := a.getLsbD (n - c), of1 := r.msb ^^ a.msb }

/-- SHRD for a count of 1 to the width (43_logical_shift_rotate.md R435). -/
def doubleRight {n : Nat} (a b : BitVec n) (c : Nat) : Shifted n :=
  let r := (a >>> c) ||| (b <<< (n - c))
  { value := r, cf := a.getLsbD (c - 1), of1 := r.msb ^^ a.msb }

/-! Free flags (93_implementation_defined.md U25). -/

/-- All six status flags free. -/
def Flags.freeStatus (f : Flags) (v : BitVec 6) : Flags :=
  { f with cf := v.getLsbD 0, pf := v.getLsbD 1, af := v.getLsbD 2, zf := v.getLsbD 3, sf := v.getLsbD 4,
           of := v.getLsbD 5 }

/-- Make all six status flags free values. -/
def freeStatus : M Unit := do
  let v ← draw 6
  updateFlags fun f => f.freeStatus v

/-- MUL and IMUL: CF = OF = `high`, the other four free (41_arithmetic.md R380, R381, R382). -/
def mulFlags (high : Bool) : M Unit := do
  let v ← draw 6
  updateFlags fun f => { f.freeStatus v with cf := high, of := high }

/-- BT and its kin: CF as given, the other five free (44_bit_manipulation.md R451). -/
def bitFlags (cf : Bool) : M Unit := do
  let v ← draw 6
  updateFlags fun f => { f.freeStatus v with cf := cf }

/-- BSF and BSR: ZF as given, the other five free (44_bit_manipulation.md R455). -/
def scanFlags (zf : Bool) : M Unit := do
  let v ← draw 6
  updateFlags fun f => { f.freeStatus v with zf := zf }

/-- AAM and AAD: SF, ZF, PF of AL, the other three free (41_arithmetic.md R388, R389). -/
def asciiFlags (al : Byte) : M Unit := do
  let v ← draw 6
  updateFlags fun f => (f.freeStatus v).szp al

/-! Decimal adjustment of AL (41_arithmetic.md R365, R366, R372, R373): the new value with CF and AF. -/

/-- What an adjustment gives. -/
structure Adjusted where
  al : Byte
  cf : Bool
  af : Bool

/-- The test for a low digit that needs adjustment. -/
def lowDigit (al : Byte) (af : Bool) : Bool := decide (9 < al.toNat % 16) || af

/-- DAA (41_arithmetic.md R366). -/
def adjustDaa (al : Byte) (cf af : Bool) : Adjusted :=
  let low := lowDigit al af
  let high := decide (0x99 < al.toNat) || cf
  let x := if low then al + 6 else al
  { al := if high then x + 0x60 else x, cf := high, af := low }

/-- DAS (41_arithmetic.md R372). -/
def adjustDas (al : Byte) (cf af : Bool) : Adjusted :=
  let low := lowDigit al af
  let high := decide (0x99 < al.toNat) || cf
  let x := if low then al - 6 else al
  { al := if high then x - 0x60 else x, cf := high || (low && (cf || decide (al.toNat < 6))), af := low }

/-! Conditions (30_encoding.md R219). -/

/-- The sixteen conditions in the order of their numbers. -/
inductive Cond where
  | o | no | b | ae | e | ne | be | a | s | ns | p | np | l | ge | le | g
deriving DecidableEq, Repr

/-- cond(cc) (30_encoding.md R219). -/
def Flags.holds (f : Flags) : Cond → Bool
  | .o => f.of
  | .no => !f.of
  | .b => f.cf
  | .ae => !f.cf
  | .e => f.zf
  | .ne => !f.zf
  | .be => f.cf || f.zf
  | .a => !f.cf && !f.zf
  | .s => f.sf
  | .ns => !f.sf
  | .p => f.pf
  | .np => !f.pf
  | .l => f.sf != f.of
  | .ge => f.sf == f.of
  | .le => f.zf || f.sf != f.of
  | .g => !f.zf && f.sf == f.of

/-- The low byte of EFLAGS as LAHF gives it (40_data_transfer.md R340). -/
def Flags.lowByte (f : Flags) : Byte := f.image.extractLsb' 0 8

/-- The flags SAHF loads (40_data_transfer.md R341). -/
def Flags.ofLowByte (f : Flags) (v : Byte) : Flags :=
  { f with sf := v.getLsbD 7, zf := v.getLsbD 6, af := v.getLsbD 4, pf := v.getLsbD 2, cf := v.getLsbD 0 }

/-- The image PUSHF pushes: VM and RF are 0 (40_data_transfer.md R342). -/
def Flags.pushed (f : Flags) : Dword := f.image &&& 0x00FCFFFF

end Sys2Proof.Machine
end

