-- ==== Sys2Proof/Machine/Arithmetic.lean ====
section
/-! DEFINITION. The arithmetic instructions (41_arithmetic.md), and the two-operand shapes that the logical ones
share (R361). -/

namespace Sys2Proof.Machine

/-! The shapes of 41_arithmetic.md R361. -/

/-- Destination r/m, source given: read-modify-write (40_data_transfer.md R301). -/
def aluTo (w : Width) (op : Binary) (rm : Rm) (b : BitVec w.bits) : M Unit := do
  let p ← locate w rm true
  let s ← get
  let a ← getPlaceToWrite w s.dec.lock p
  let v ← op a b
  putPlace w p v

/-- Destination r/m, source register. -/
def aluRmReg (w : Width) (op : Binary) (rm : Rm) (r : Reg) : M Unit := do
  let b ← getReg w r
  aluTo w op rm b

/-- Destination register, source r/m. -/
def aluRegRm (w : Width) (op : Binary) (r : Reg) (rm : Rm) : M Unit := do
  let b ← readRm w rm
  aluTo w op (.reg r) b

/-- First operand r/m, second given, nothing written but flags: CMP and TEST (41_arithmetic.md R371,
43_logical_shift_rotate.md R425). -/
def testTo (w : Width) (op : Binary) (rm : Rm) (b : BitVec w.bits) : M Unit := do
  let a ← readRm w rm
  let _ ← op a b
  pure ()

/-- First operand r/m, second a register, nothing written but flags. -/
def testRmReg (w : Width) (op : Binary) (rm : Rm) (r : Reg) : M Unit := do
  let b ← getReg w r
  testTo w op rm b

/-- First operand a register, second r/m, nothing written but flags. -/
def testRegRm (w : Width) (op : Binary) (r : Reg) (rm : Rm) : M Unit := do
  let b ← readRm w rm
  testTo w op (.reg r) b

/-- One operand, read-modify-write (41_arithmetic.md R364). -/
def unaryRm (w : Width) (op : Unary) (rm : Rm) : M Unit := do
  let p ← locate w rm true
  let s ← get
  let a ← getPlaceToWrite w s.dec.lock p
  let v ← op a
  putPlace w p v

/-! Multiplication and division. -/

/-- A double-width result: AX, DX:AX or EDX:EAX (41_arithmetic.md R380). -/
def putWide (w : Width) (v : Nat) : M Unit :=
  match w with
  | .w8 => setReg .w16 .eax (BitVec.ofNat 16 v)
  | .w16 => do
    setReg .w16 .eax (BitVec.ofNat 16 v)
    setReg .w16 .edx (BitVec.ofNat 16 (v / 2 ^ 16))
  | .w32 => do
    setReg .w32 .eax (BitVec.ofNat 32 v)
    setReg .w32 .edx (BitVec.ofNat 32 (v / 2 ^ 32))

/-- The double-width dividend: AX, DX:AX or EDX:EAX (41_arithmetic.md R385). -/
def Regs.wide (g : Regs) : Width → Nat
  | .w8 => (g.read .w16 .eax).toNat
  | .w16 => (g.read .w16 .edx).toNat * 2 ^ 16 + (g.read .w16 .eax).toNat
  | .w32 => g.edx.toNat * 2 ^ 32 + g.eax.toNat

/-- Quotient and remainder: AL, AH or (E)AX, (E)DX (41_arithmetic.md R385). -/
def putQuotient (w : Width) (q r : BitVec w.bits) : M Unit := do
  setReg w .eax q
  setReg w (if w = .w8 then regAh else .edx) r

/-- MUL (41_arithmetic.md R380). -/
def multiply (w : Width) (rm : Rm) : M Unit := do
  let b ← readRm w rm
  let a ← getReg w .eax
  putWide w (a.toNat * b.toNat)
  mulFlags (decide (2 ^ w.bits ≤ a.toNat * b.toNat))

/-- A product does not fit in the signed width (41_arithmetic.md R381, R382). -/
def signedOverflow (w : Width) (p : Int) : Bool := decide ((BitVec.ofInt w.bits p).toInt ≠ p)

/-- IMUL with one operand (41_arithmetic.md R381). -/
def multiplySigned (w : Width) (rm : Rm) : M Unit := do
  let b ← readRm w rm
  let a ← getReg w .eax
  putWide w (BitVec.ofInt (2 * w.bits) (a.toInt * b.toInt)).toNat
  mulFlags (signedOverflow w (a.toInt * b.toInt))

/-- IMUL with two or three operands (41_arithmetic.md R382). -/
def multiplyInto (w : Width) (r : Reg) (a b : BitVec w.bits) : M Unit := do
  setReg w r (BitVec.ofInt w.bits (a.toInt * b.toInt))
  mulFlags (signedOverflow w (a.toInt * b.toInt))

/-- IMUL rv, r/mv (41_arithmetic.md R382). -/
def multiplyReg (w : Width) (r : Reg) (rm : Rm) : M Unit := do
  let b ← readRm w rm
  let a ← getReg w r
  multiplyInto w r a b

/-- IMUL rv, r/mv, imm (41_arithmetic.md R382). -/
def multiplyImm (w : Width) (r : Reg) (rm : Rm) (b : BitVec w.bits) : M Unit := do
  let a ← readRm w rm
  multiplyInto w r a b

/-- DIV (41_arithmetic.md R385). -/
def divide (w : Width) (rm : Rm) : M Unit := do
  let d ← readRm w rm
  let s ← get
  let n := s.regs.wide w
  require (decide (d ≠ 0)) .de
  require (decide (n / d.toNat < 2 ^ w.bits)) .de
  putQuotient w (BitVec.ofNat w.bits (n / d.toNat)) (BitVec.ofNat w.bits (n % d.toNat))
  freeStatus

/-- IDIV: the quotient truncated toward zero, the remainder with the sign of the dividend (41_arithmetic.md R386). -/
def divideSigned (w : Width) (rm : Rm) : M Unit := do
  let d ← readRm w rm
  let s ← get
  let n := (BitVec.ofNat (2 * w.bits) (s.regs.wide w)).toInt
  require (decide (d ≠ 0)) .de
  require (!signedOverflow w (n.tdiv d.toInt)) .de
  putQuotient w (BitVec.ofInt w.bits (n.tdiv d.toInt)) (BitVec.ofInt w.bits (n.tmod d.toInt))
  freeStatus

/-! Decimal and ASCII adjustment. -/

/-- DAA and DAS: OF is free (41_arithmetic.md R366, R372). -/
def decimalAdjust (f : Byte → Bool → Bool → Adjusted) : M Unit := do
  let s ← get
  let r := f (s.regs.read .w8 .eax) s.flags.cf s.flags.af
  let of_ ← drawBool
  setReg .w8 .eax r.al
  updateFlags fun g => { g.szp r.al with cf := r.cf, af := r.af, of := of_ }

/-- AAA and AAS: AL and AH change by `step6` and `step1`; AH is free where the carry out of AL may or may not reach
it; OF, SF, ZF, PF are free (41_arithmetic.md R365, R373, 93_implementation_defined.md U25). -/
def asciiAdjust (step6 step1 : Byte) (ahOpen : Byte → Bool) : M Unit := do
  let s ← get
  let al : Byte := s.regs.read .w8 .eax
  let ah : Byte := s.regs.read .w8 regAh
  let adjust := lowDigit al s.flags.af
  let anyAh ← draw 8
  setReg .w8 .eax ((if adjust then al + step6 else al) &&& 0x0F)
  setReg .w8 regAh (if adjust then (if ahOpen al then anyAh else ah + step1) else ah)
  let v ← draw 6
  updateFlags fun f => { f.freeStatus v with cf := adjust, af := adjust }

/-- AAM (41_arithmetic.md R388). -/
def asciiMultiply (base : Byte) : M Unit := do
  require (decide (base ≠ 0)) .de
  let al ← getReg .w8 .eax
  setReg .w8 regAh (BitVec.udiv al base)
  setReg .w8 .eax (BitVec.umod al base)
  asciiFlags (BitVec.umod al base)

/-- AAD (41_arithmetic.md R389). -/
def asciiDivide (base : Byte) : M Unit := do
  let al : Byte ← getReg .w8 .eax
  let ah : Byte ← getReg .w8 regAh
  setReg .w8 .eax (al + ah * base)
  setReg .w8 regAh 0
  asciiFlags (al + ah * base)

/-! The meanings. -/

/-- ADD r/m8, r8 (41_arithmetic.md R362). -/
def execAddRm8R8 (rm : Rm) (r : Reg) (s : State) : Result :=
  runSimple (aluRmReg .w8 opAdd rm r) s

/-- ADD r/mv, rv (41_arithmetic.md R362). -/
def execAddRmvRv (rm : Rm) (r : Reg) (s : State) : Result :=
  runSimple (aluRmReg s.vWidth opAdd rm r) s

/-- ADD r8, r/m8 (41_arithmetic.md R362). -/
def execAddR8Rm8 (r : Reg) (rm : Rm) (s : State) : Result :=
  runSimple (aluRegRm .w8 opAdd r rm) s

/-- ADD rv, r/mv (41_arithmetic.md R362). -/
def execAddRvRmv (r : Reg) (rm : Rm) (s : State) : Result :=
  runSimple (aluRegRm s.vWidth opAdd r rm) s

/-- ADD AL, imm8 (41_arithmetic.md R362). -/
def execAddAlImm8 (imm : Byte) (s : State) : Result :=
  runSimple (aluTo .w8 opAdd (.reg .eax) imm) s

/-- ADD eAX, immv (41_arithmetic.md R362). -/
def execAddEaxImmv (imm : Dword) (s : State) : Result :=
  runSimple (aluTo s.vWidth opAdd (.reg .eax) (immV s.vWidth imm)) s

/-- ADD r/m8, imm8 (41_arithmetic.md R362). -/
def execAddRm8Imm8 (rm : Rm) (imm : Byte) (s : State) : Result :=
  runSimple (aluTo .w8 opAdd rm imm) s

/-- ADD r/mv, immv (41_arithmetic.md R362). -/
def execAddRmvImmv (rm : Rm) (imm : Dword) (s : State) : Result :=
  runSimple (aluTo s.vWidth opAdd rm (immV s.vWidth imm)) s

/-- ADD r/mv, simm8 (41_arithmetic.md R362). -/
def execAddRmvSimm8 (rm : Rm) (imm : Byte) (s : State) : Result :=
  runSimple (aluTo s.vWidth opAdd rm (immS s.vWidth imm)) s

/-- ADC r/m8, r8 (41_arithmetic.md R363). -/
def execAdcRm8R8 (rm : Rm) (r : Reg) (s : State) : Result :=
  runSimple (aluRmReg .w8 opAdc rm r) s

/-- ADC r/mv, rv (41_arithmetic.md R363). -/
def execAdcRmvRv (rm : Rm) (r : Reg) (s : State) : Result :=
  runSimple (aluRmReg s.vWidth opAdc rm r) s

/-- ADC r8, r/m8 (41_arithmetic.md R363). -/
def execAdcR8Rm8 (r : Reg) (rm : Rm) (s : State) : Result :=
  runSimple (aluRegRm .w8 opAdc r rm) s

/-- ADC rv, r/mv (41_arithmetic.md R363). -/
def execAdcRvRmv (r : Reg) (rm : Rm) (s : State) : Result :=
  runSimple (aluRegRm s.vWidth opAdc r rm) s

/-- ADC AL, imm8 (41_arithmetic.md R363). -/
def execAdcAlImm8 (imm : Byte) (s : State) : Result :=
  runSimple (aluTo .w8 opAdc (.reg .eax) imm) s

/-- ADC eAX, immv (41_arithmetic.md R363). -/
def execAdcEaxImmv (imm : Dword) (s : State) : Result :=
  runSimple (aluTo s.vWidth opAdc (.reg .eax) (immV s.vWidth imm)) s

/-- ADC r/m8, imm8 (41_arithmetic.md R363). -/
def execAdcRm8Imm8 (rm : Rm) (imm : Byte) (s : State) : Result :=
  runSimple (aluTo .w8 opAdc rm imm) s

/-- ADC r/mv, immv (41_arithmetic.md R363). -/
def execAdcRmvImmv (rm : Rm) (imm : Dword) (s : State) : Result :=
  runSimple (aluTo s.vWidth opAdc rm (immV s.vWidth imm)) s

/-- ADC r/mv, simm8 (41_arithmetic.md R363). -/
def execAdcRmvSimm8 (rm : Rm) (imm : Byte) (s : State) : Result :=
  runSimple (aluTo s.vWidth opAdc rm (immS s.vWidth imm)) s

/-- SBB r/m8, r8 (41_arithmetic.md R368). -/
def execSbbRm8R8 (rm : Rm) (r : Reg) (s : State) : Result :=
  runSimple (aluRmReg .w8 opSbb rm r) s

/-- SBB r/mv, rv (41_arithmetic.md R368). -/
def execSbbRmvRv (rm : Rm) (r : Reg) (s : State) : Result :=
  runSimple (aluRmReg s.vWidth opSbb rm r) s

/-- SBB r8, r/m8 (41_arithmetic.md R368). -/
def execSbbR8Rm8 (r : Reg) (rm : Rm) (s : State) : Result :=
  runSimple (aluRegRm .w8 opSbb r rm) s

/-- SBB rv, r/mv (41_arithmetic.md R368). -/
def execSbbRvRmv (r : Reg) (rm : Rm) (s : State) : Result :=
  runSimple (aluRegRm s.vWidth opSbb r rm) s

/-- SBB AL, imm8 (41_arithmetic.md R368). -/
def execSbbAlImm8 (imm : Byte) (s : State) : Result :=
  runSimple (aluTo .w8 opSbb (.reg .eax) imm) s

/-- SBB eAX, immv (41_arithmetic.md R368). -/
def execSbbEaxImmv (imm : Dword) (s : State) : Result :=
  runSimple (aluTo s.vWidth opSbb (.reg .eax) (immV s.vWidth imm)) s

/-- SBB r/m8, imm8 (41_arithmetic.md R368). -/
def execSbbRm8Imm8 (rm : Rm) (imm : Byte) (s : State) : Result :=
  runSimple (aluTo .w8 opSbb rm imm) s

/-- SBB r/mv, immv (41_arithmetic.md R368). -/
def execSbbRmvImmv (rm : Rm) (imm : Dword) (s : State) : Result :=
  runSimple (aluTo s.vWidth opSbb rm (immV s.vWidth imm)) s

/-- SBB r/mv, simm8 (41_arithmetic.md R368). -/
def execSbbRmvSimm8 (rm : Rm) (imm : Byte) (s : State) : Result :=
  runSimple (aluTo s.vWidth opSbb rm (immS s.vWidth imm)) s

/-- SUB r/m8, r8 (41_arithmetic.md R367). -/
def execSubRm8R8 (rm : Rm) (r : Reg) (s : State) : Result :=
  runSimple (aluRmReg .w8 opSub rm r) s

/-- SUB r/mv, rv (41_arithmetic.md R367). -/
def execSubRmvRv (rm : Rm) (r : Reg) (s : State) : Result :=
  runSimple (aluRmReg s.vWidth opSub rm r) s

/-- SUB r8, r/m8 (41_arithmetic.md R367). -/
def execSubR8Rm8 (r : Reg) (rm : Rm) (s : State) : Result :=
  runSimple (aluRegRm .w8 opSub r rm) s

/-- SUB rv, r/mv (41_arithmetic.md R367). -/
def execSubRvRmv (r : Reg) (rm : Rm) (s : State) : Result :=
  runSimple (aluRegRm s.vWidth opSub r rm) s

/-- SUB AL, imm8 (41_arithmetic.md R367). -/
def execSubAlImm8 (imm : Byte) (s : State) : Result :=
  runSimple (aluTo .w8 opSub (.reg .eax) imm) s

/-- SUB eAX, immv (41_arithmetic.md R367). -/
def execSubEaxImmv (imm : Dword) (s : State) : Result :=
  runSimple (aluTo s.vWidth opSub (.reg .eax) (immV s.vWidth imm)) s

/-- SUB r/m8, imm8 (41_arithmetic.md R367). -/
def execSubRm8Imm8 (rm : Rm) (imm : Byte) (s : State) : Result :=
  runSimple (aluTo .w8 opSub rm imm) s

/-- SUB r/mv, immv (41_arithmetic.md R367). -/
def execSubRmvImmv (rm : Rm) (imm : Dword) (s : State) : Result :=
  runSimple (aluTo s.vWidth opSub rm (immV s.vWidth imm)) s

/-- SUB r/mv, simm8 (41_arithmetic.md R367). -/
def execSubRmvSimm8 (rm : Rm) (imm : Byte) (s : State) : Result :=
  runSimple (aluTo s.vWidth opSub rm (immS s.vWidth imm)) s

/-- CMP r/m8, r8 (41_arithmetic.md R371). -/
def execCmpRm8R8 (rm : Rm) (r : Reg) (s : State) : Result :=
  runSimple (testRmReg .w8 opSub rm r) s

/-- CMP r/mv, rv (41_arithmetic.md R371). -/
def execCmpRmvRv (rm : Rm) (r : Reg) (s : State) : Result :=
  runSimple (testRmReg s.vWidth opSub rm r) s

/-- CMP r8, r/m8 (41_arithmetic.md R371). -/
def execCmpR8Rm8 (r : Reg) (rm : Rm) (s : State) : Result :=
  runSimple (testRegRm .w8 opSub r rm) s

/-- CMP rv, r/mv (41_arithmetic.md R371). -/
def execCmpRvRmv (r : Reg) (rm : Rm) (s : State) : Result :=
  runSimple (testRegRm s.vWidth opSub r rm) s

/-- CMP AL, imm8 (41_arithmetic.md R371). -/
def execCmpAlImm8 (imm : Byte) (s : State) : Result :=
  runSimple (testTo .w8 opSub (.reg .eax) imm) s

/-- CMP eAX, immv (41_arithmetic.md R371). -/
def execCmpEaxImmv (imm : Dword) (s : State) : Result :=
  runSimple (testTo s.vWidth opSub (.reg .eax) (immV s.vWidth imm)) s

/-- CMP r/m8, imm8 (41_arithmetic.md R371). -/
def execCmpRm8Imm8 (rm : Rm) (imm : Byte) (s : State) : Result :=
  runSimple (testTo .w8 opSub rm imm) s

/-- CMP r/mv, immv (41_arithmetic.md R371). -/
def execCmpRmvImmv (rm : Rm) (imm : Dword) (s : State) : Result :=
  runSimple (testTo s.vWidth opSub rm (immV s.vWidth imm)) s

/-- CMP r/mv, simm8 (41_arithmetic.md R371). -/
def execCmpRmvSimm8 (rm : Rm) (imm : Byte) (s : State) : Result :=
  runSimple (testTo s.vWidth opSub rm (immS s.vWidth imm)) s

/-- DAA (41_arithmetic.md R366). -/
def execDaa (s : State) : Result :=
  runSimple (decimalAdjust adjustDaa) s

/-- DAS (41_arithmetic.md R372). -/
def execDas (s : State) : Result :=
  runSimple (decimalAdjust adjustDas) s

/-- AAA (41_arithmetic.md R365). -/
def execAaa (s : State) : Result :=
  runSimple (asciiAdjust 6 1 fun al => decide (0xFA ≤ al.toNat)) s

/-- AAS (41_arithmetic.md R373). -/
def execAas (s : State) : Result :=
  runSimple (asciiAdjust (-6) (-1) fun al => decide (al.toNat < 6)) s

/-- INC rv (41_arithmetic.md R364). -/
def execIncRv (r : Reg) (s : State) : Result :=
  runSimple (unaryRm s.vWidth opInc (.reg r)) s

/-- DEC rv (41_arithmetic.md R369). -/
def execDecRv (r : Reg) (s : State) : Result :=
  runSimple (unaryRm s.vWidth opDec (.reg r)) s

/-- IMUL rv, r/mv, immv (41_arithmetic.md R382). -/
def execImulRvRmvImmv (r : Reg) (rm : Rm) (imm : Dword) (s : State) : Result :=
  runSimple (multiplyImm s.vWidth r rm (immV s.vWidth imm)) s

/-- IMUL rv, r/mv, simm8 (41_arithmetic.md R382). -/
def execImulRvRmvSimm8 (r : Reg) (rm : Rm) (imm : Byte) (s : State) : Result :=
  runSimple (multiplyImm s.vWidth r rm (immS s.vWidth imm)) s

/-- AAM (41_arithmetic.md R388). -/
def execAam (imm : Byte) (s : State) : Result :=
  runSimple (asciiMultiply imm) s

/-- AAD (41_arithmetic.md R389). -/
def execAad (imm : Byte) (s : State) : Result :=
  runSimple (asciiDivide imm) s

/-- NEG r/m8 (41_arithmetic.md R370). -/
def execNegRm8 (rm : Rm) (s : State) : Result :=
  runSimple (unaryRm .w8 opNeg rm) s

/-- MUL r/m8 (41_arithmetic.md R380). -/
def execMulRm8 (rm : Rm) (s : State) : Result :=
  runSimple (multiply .w8 rm) s

/-- IMUL r/m8 (41_arithmetic.md R381). -/
def execImulRm8 (rm : Rm) (s : State) : Result :=
  runSimple (multiplySigned .w8 rm) s

/-- DIV r/m8 (41_arithmetic.md R385). -/
def execDivRm8 (rm : Rm) (s : State) : Result :=
  runSimple (divide .w8 rm) s

/-- IDIV r/m8 (41_arithmetic.md R386). -/
def execIdivRm8 (rm : Rm) (s : State) : Result :=
  runSimple (divideSigned .w8 rm) s

/-- NEG r/mv (41_arithmetic.md R370). -/
def execNegRmv (rm : Rm) (s : State) : Result :=
  runSimple (unaryRm s.vWidth opNeg rm) s

/-- MUL r/mv (41_arithmetic.md R380). -/
def execMulRmv (rm : Rm) (s : State) : Result :=
  runSimple (multiply s.vWidth rm) s

/-- IMUL r/mv (41_arithmetic.md R381). -/
def execImulRmv (rm : Rm) (s : State) : Result :=
  runSimple (multiplySigned s.vWidth rm) s

/-- DIV r/mv (41_arithmetic.md R385). -/
def execDivRmv (rm : Rm) (s : State) : Result :=
  runSimple (divide s.vWidth rm) s

/-- IDIV r/mv (41_arithmetic.md R386). -/
def execIdivRmv (rm : Rm) (s : State) : Result :=
  runSimple (divideSigned s.vWidth rm) s

/-- INC r/m8 (41_arithmetic.md R364). -/
def execIncRm8 (rm : Rm) (s : State) : Result :=
  runSimple (unaryRm .w8 opInc rm) s

/-- DEC r/m8 (41_arithmetic.md R369). -/
def execDecRm8 (rm : Rm) (s : State) : Result :=
  runSimple (unaryRm .w8 opDec rm) s

/-- INC r/mv (41_arithmetic.md R364). -/
def execIncRmv (rm : Rm) (s : State) : Result :=
  runSimple (unaryRm s.vWidth opInc rm) s

/-- DEC r/mv (41_arithmetic.md R369). -/
def execDecRmv (rm : Rm) (s : State) : Result :=
  runSimple (unaryRm s.vWidth opDec rm) s

/-- IMUL rv, r/mv (41_arithmetic.md R382). -/
def execImulRvRmv (r : Reg) (rm : Rm) (s : State) : Result :=
  runSimple (multiplyReg s.vWidth r rm) s

end Sys2Proof.Machine
end

