-- ==== Sys2Proof/Machine/BitOps.lean ====
section
/-! DEFINITION. The bit manipulation instructions (44_bit_manipulation.md). -/

namespace Sys2Proof.Machine

/-! Shared operations. -/

/-- The unit that holds the bit of a register offset: with a memory base the offset is signed and reaches any bit of
the string (44_bit_manipulation.md R450). -/
def locateBit (w : Width) (rm : Rm) (offset : BitVec w.bits) (write : Bool) : M Place :=
  match rm with
  | .reg r => pure (.reg r)
  | .mem ea => do
    let s ← get
    let unit : Int := (w.bytes : Int) * (offset.toInt / (w.bits : Int))
    Place.mem <$>
      segLocate (s.segFor (eaDefault ea)) (s.asWrap (eaOffset s.regs ea + BitVec.ofInt 32 unit)) w.bytes write

/-- The number of the bit in its unit (44_bit_manipulation.md R450). -/
def bitIndex {n : Nat} (w : Width) (offset : BitVec n) : Nat := offset.toNat % w.bits

/-- BT at a located unit (44_bit_manipulation.md R451). -/
def testBit (w : Width) (p : Place) (k : Nat) : M Unit := do
  let a ← getPlace w p
  bitFlags (a.getLsbD k)

/-- BTS, BTR or BTC at a located unit: `f` changes the unit by the mask of the bit (44_bit_manipulation.md R452 to
R454). -/
def changeBit (w : Width) (f : {n : Nat} → BitVec n → BitVec n → BitVec n) (p : Place) (k : Nat) : M Unit := do
  let s ← get
  let a ← getPlaceToWrite w s.dec.lock p
  bitFlags (a.getLsbD k)
  putPlace w p (f a (BitVec.twoPow w.bits k))

/-- Set the bits of a mask. -/
def setBits {n : Nat} (a m : BitVec n) : BitVec n := a ||| m

/-- Reset the bits of a mask. -/
def resetBits {n : Nat} (a m : BitVec n) : BitVec n := a &&& ~~~m

/-- Complement the bits of a mask. -/
def flipBits {n : Nat} (a m : BitVec n) : BitVec n := a ^^^ m

/-- BT with a register offset (44_bit_manipulation.md R451). -/
def testBitReg (w : Width) (rm : Rm) (r : Reg) : M Unit := do
  let o ← getReg w r
  let p ← locateBit w rm o false
  testBit w p (bitIndex w o)

/-- BT with an immediate offset (44_bit_manipulation.md R451). -/
def testBitImm (w : Width) (rm : Rm) (imm : Byte) : M Unit := do
  let p ← locate w rm false
  testBit w p (bitIndex w imm)

/-- BTS, BTR or BTC with a register offset (44_bit_manipulation.md R452). -/
def changeBitReg (w : Width) (f : {n : Nat} → BitVec n → BitVec n → BitVec n) (rm : Rm) (r : Reg) : M Unit := do
  let o ← getReg w r
  let p ← locateBit w rm o true
  changeBit w f p (bitIndex w o)

/-- BTS, BTR or BTC with an immediate offset (44_bit_manipulation.md R452). -/
def changeBitImm (w : Width) (f : {n : Nat} → BitVec n → BitVec n → BitVec n) (rm : Rm) (imm : Byte) : M Unit := do
  let p ← locate w rm true
  changeBit w f p (bitIndex w imm)

/-- The least number of a 1 bit (44_bit_manipulation.md R455). -/
def lowestBit {n : Nat} (v : BitVec n) : Nat := ((List.range n).find? fun i => v.getLsbD i).getD 0

/-- The greatest number of a 1 bit (44_bit_manipulation.md R456). -/
def highestBit {n : Nat} (v : BitVec n) : Nat := ((List.range n).reverse.find? fun i => v.getLsbD i).getD 0

/-- BSF and BSR; with a zero source the destination is free (44_bit_manipulation.md R455, 93_implementation_defined.md
U27). -/
def scanBits (w : Width) (f : {n : Nat} → BitVec n → Nat) (r : Reg) (rm : Rm) : M Unit := do
  let v ← readRm w rm
  scanFlags (decide (v = 0))
  let any ← draw w.bits
  setReg w r (if v = 0 then any else BitVec.ofNat w.bits (f v))

/-! The meanings. -/

/-- BT r/mv, rv (44_bit_manipulation.md R451). -/
def execBtRmvRv (rm : Rm) (r : Reg) (s : State) : Result :=
  runSimple (testBitReg s.vWidth rm r) s

/-- BTS r/mv, rv (44_bit_manipulation.md R452). -/
def execBtsRmvRv (rm : Rm) (r : Reg) (s : State) : Result :=
  runSimple (changeBitReg s.vWidth setBits rm r) s

/-- BTR r/mv, rv (44_bit_manipulation.md R453). -/
def execBtrRmvRv (rm : Rm) (r : Reg) (s : State) : Result :=
  runSimple (changeBitReg s.vWidth resetBits rm r) s

/-- BTC r/mv, rv (44_bit_manipulation.md R454). -/
def execBtcRmvRv (rm : Rm) (r : Reg) (s : State) : Result :=
  runSimple (changeBitReg s.vWidth flipBits rm r) s

/-- BT r/mv, imm8 (44_bit_manipulation.md R451). -/
def execBtRmvImm8 (rm : Rm) (imm : Byte) (s : State) : Result :=
  runSimple (testBitImm s.vWidth rm imm) s

/-- BTS r/mv, imm8 (44_bit_manipulation.md R452). -/
def execBtsRmvImm8 (rm : Rm) (imm : Byte) (s : State) : Result :=
  runSimple (changeBitImm s.vWidth setBits rm imm) s

/-- BTR r/mv, imm8 (44_bit_manipulation.md R453). -/
def execBtrRmvImm8 (rm : Rm) (imm : Byte) (s : State) : Result :=
  runSimple (changeBitImm s.vWidth resetBits rm imm) s

/-- BTC r/mv, imm8 (44_bit_manipulation.md R454). -/
def execBtcRmvImm8 (rm : Rm) (imm : Byte) (s : State) : Result :=
  runSimple (changeBitImm s.vWidth flipBits rm imm) s

/-- BSF rv, r/mv (44_bit_manipulation.md R455). -/
def execBsf (r : Reg) (rm : Rm) (s : State) : Result :=
  runSimple (scanBits s.vWidth lowestBit r rm) s

/-- BSR rv, r/mv (44_bit_manipulation.md R456). -/
def execBsr (r : Reg) (rm : Rm) (s : State) : Result :=
  runSimple (scanBits s.vWidth highestBit r rm) s

end Sys2Proof.Machine
end

