-- ==== Sys2Proof/Machine/DataTransfer.lean ====
section
/-! DEFINITION. The data transfer instructions (40_data_transfer.md). -/

namespace Sys2Proof.Machine

/-! Shared operations. -/

/-- Register to r/m (40_data_transfer.md R303). -/
def moveToRm (w : Width) (rm : Rm) (r : Reg) : M Unit := do
  let v ← getReg w r
  writeRm w rm v

/-- r/m to register (40_data_transfer.md R303). -/
def moveToReg (w : Width) (r : Reg) (rm : Rm) : M Unit := do
  let v ← readRm w rm
  setReg w r v

/-- A direct offset to the accumulator (40_data_transfer.md R305). -/
def loadMoffs (w : Width) (off : Dword) : M Unit := do
  let ps ← locateMoffs off w.bytes false
  let v ← readValue w ps
  setReg w .eax v

/-- The accumulator to a direct offset (40_data_transfer.md R305). -/
def storeMoffs (w : Width) (off : Dword) : M Unit := do
  let v ← getReg w .eax
  let ps ← locateMoffs off w.bytes true
  memWrite ps v.toNat

/-- MOV r/m16, sreg (40_data_transfer.md R306). -/
def moveFromSreg (rm : Rm) (sr : Sreg) : M Unit := do
  let s ← get
  writeRm16 rm (s.segs.get sr).sel

/-- MOV sreg, r/m16 (40_data_transfer.md R307). -/
def moveToSreg (sr : Sreg) (rm : Rm) : M Unit := do
  let sel ← readRm .w16 rm
  loadSeg sr sel
  inhibitAfterSS sr

/-- PUSH of a general register: the value before the push (40_data_transfer.md R308). -/
def pushReg (w : Width) (r : Reg) : M Unit := do
  let v ← getReg w r
  push w v

/-- PUSH of an r/m operand, addressed before the push (40_data_transfer.md R308). The checks of the push are made
before a memory source is read (92_eei_decisions.md D6). -/
def pushRm (w : Width) (rm : Rm) : M Unit := do
  let src ← locate w rm false
  let dst ← pushLocate w.bytes 1
  let v ← getPlace w src
  memWrite dst v.toNat
  moveStackPtr (-(BitVec.ofNat 32 w.bytes))

/-- PUSH of a segment register; with OS = 32 bits 31..16 of the slot are a free value (40_data_transfer.md R309). -/
def pushSreg (sr : Sreg) : M Unit := do
  let s ← get
  if s.os32 then do
    let hi ← draw 16
    push .w32 (hi ++ (s.segs.get sr).sel)
  else push .w16 (s.segs.get sr).sel

/-- POP into a general register: the value replaces the incremented stack pointer (40_data_transfer.md R310). -/
def popReg (w : Width) (r : Reg) : M Unit := do
  let v ← pop w
  setReg w r v

/-- POP into an r/m operand, addressed after the increment (40_data_transfer.md R310). The checks of the destination are
made before the stack is read (92_eei_decisions.md D6). -/
def popRm (w : Width) (rm : Rm) : M Unit := do
  let src ← popLocate w.bytes 0
  moveStackPtr (BitVec.ofNat 32 w.bytes)
  let dst ← locate w rm true
  let v ← memRead src
  putPlace w dst (BitVec.ofNat w.bits v)

/-- POP into a segment register: the stack pointer moves after the load (40_data_transfer.md R311, log 34). -/
def popSreg (sr : Sreg) : M Unit := do
  let s ← get
  let v ← stackItem (itemBytes s.os32) 0
  loadSeg sr (BitVec.ofNat 16 v)
  moveStackPtr (BitVec.ofNat 32 (itemBytes s.os32))
  inhibitAfterSS sr

/-- PUSHA (40_data_transfer.md R312): no item is written unless all can be (92_eei_decisions.md D6, log 35). PUSHAD
pushes the whole of ESP, also over a 16-bit stack: the model's choice (log 44). -/
def pushAllRegs (w : Width) : M Unit := do
  let s ← get
  pushAll w.bytes (s.regs.toList.map BitVec.toNat)

/-- POPA: the saved stack pointer, item 3, is read and discarded (40_data_transfer.md R313). -/
def popAllRegs (w : Width) : M Unit := do
  let vs ← stackItems w.bytes 8 0
  let item : Nat → BitVec w.bits := fun k => BitVec.ofNat w.bits (nthValue vs k)
  setReg w .edi (item 0)
  setReg w .esi (item 1)
  setReg w .ebp (item 2)
  setReg w .ebx (item 4)
  setReg w .edx (item 5)
  setReg w .ecx (item 6)
  setReg w .eax (item 7)
  moveStackPtr (BitVec.ofNat 32 (8 * w.bytes))

/-- XCHG: locked with or without the prefix (40_data_transfer.md R314, 20_memory.md R183). -/
def exchange (w : Width) (rm : Rm) (r : Reg) : M Unit := do
  let p ← locate w rm true
  let a ← getPlaceToWrite w true p
  let b ← getReg w r
  putPlace w p b
  setReg w r a

/-- XLAT (40_data_transfer.md R315). -/
def translateByte : M Unit := do
  let s ← get
  let v ← segRead (s.segFor .ds) (s.asWrap (s.regs.ebx + (s.regs.read .w8 .eax).setWidth 32)) .w8
  setReg .w8 .eax v

/-- MOVZX (40_data_transfer.md R320). -/
def moveZero (r : Reg) (w : Width) (rm : Rm) : M Unit := do
  let s ← get
  let v ← readRm w rm
  setReg s.vWidth r (v.setWidth s.vWidth.bits)

/-- MOVSX (40_data_transfer.md R321). -/
def moveSign (r : Reg) (w : Width) (rm : Rm) : M Unit := do
  let s ← get
  let v ← readRm w rm
  setReg s.vWidth r (v.signExtend s.vWidth.bits)

/-- CBW and CWDE (40_data_transfer.md R322). -/
def convertAcc (os32 : Bool) : M Unit := do
  let s ← get
  if os32 then setReg .w32 .eax ((s.regs.read .w16 .eax).signExtend 32)
  else setReg .w16 .eax ((s.regs.read .w8 .eax).signExtend 16)

/-- CWD and CDQ (40_data_transfer.md R323). -/
def spreadSign (w : Width) : M Unit := do
  let a ← getReg w .eax
  setReg w .edx (if a.msb then BitVec.allOnes w.bits else 0)

/-- IN (40_data_transfer.md R325). -/
def inPort (w : Width) (port : Nat) : M Unit := do
  ioPermitted port w.bytes
  let v ← ioRead port w
  setReg w .eax v

/-- OUT (40_data_transfer.md R326). -/
def outPort (w : Width) (port : Nat) : M Unit := do
  ioPermitted port w.bytes
  let v ← getReg w .eax
  ioWrite port w v

/-- LEA: no access and no check (40_data_transfer.md R330). -/
def loadAddress (w : Width) (r : Reg) (ea : EA) : M Unit := do
  let s ← get
  setReg w r ((eaOffset s.regs ea).setWidth w.bits)

/-- LDS, LES, LFS, LGS, LSS (40_data_transfer.md R331). -/
def loadPointer (sr : Sreg) (r : Reg) (ea : EA) : M Unit := do
  let s ← get
  let (sel, off) ← readFar ea
  loadSeg sr sel
  setReg s.vWidth r (off.setWidth s.vWidth.bits)

/-- LAHF (40_data_transfer.md R340). -/
def loadAh : M Unit := do
  let s ← get
  setReg .w8 regAh s.flags.lowByte

/-- SAHF (40_data_transfer.md R341). -/
def storeAh : M Unit := do
  let v ← getReg .w8 regAh
  updateFlags fun f => f.ofLowByte v

/-- In Virtual 8086 Mode PUSHF, POPF and INT n need IOPL 3 (40_data_transfer.md R342, R345, 45_control_transfer.md
R490). -/
def requireIopl86 : M Unit := do
  let s ← get
  require (!s.flags.vm || s.flags.iopl == 3) (.gp 0)

/-- PUSHF (40_data_transfer.md R342). -/
def pushFlags (w : Width) : M Unit := do
  requireIopl86
  let s ← get
  push w (s.flags.pushed.setWidth w.bits)

/-- POPF; EFLAGS.RF becomes what the image says (40_data_transfer.md R345, 60_exceptions.md R684). -/
def popFlags (w : Width) : M Done := do
  requireIopl86
  let s ← get
  let v ← pop w
  setFlags (s.flags.popped (v.setWidth 32) s.os32 (!s.cr0.pe) s.cpl)
  advance
  pure .keepRf

/-! The meanings. -/

/-- PUSH ES (40_data_transfer.md R309). -/
def execPushEs (s : State) : Result :=
  runSimple (pushSreg .es) s

/-- PUSH CS (40_data_transfer.md R309). -/
def execPushCs (s : State) : Result :=
  runSimple (pushSreg .cs) s

/-- PUSH SS (40_data_transfer.md R309). -/
def execPushSs (s : State) : Result :=
  runSimple (pushSreg .ss) s

/-- PUSH DS (40_data_transfer.md R309). -/
def execPushDs (s : State) : Result :=
  runSimple (pushSreg .ds) s

/-- PUSH FS (40_data_transfer.md R309). -/
def execPushFs (s : State) : Result :=
  runSimple (pushSreg .fs) s

/-- PUSH GS (40_data_transfer.md R309). -/
def execPushGs (s : State) : Result :=
  runSimple (pushSreg .gs) s

/-- POP ES (40_data_transfer.md R311). -/
def execPopEs (s : State) : Result :=
  runSimple (popSreg .es) s

/-- POP SS (40_data_transfer.md R311). -/
def execPopSs (s : State) : Result :=
  runSimple (popSreg .ss) s

/-- POP DS (40_data_transfer.md R311). -/
def execPopDs (s : State) : Result :=
  runSimple (popSreg .ds) s

/-- POP FS (40_data_transfer.md R311). -/
def execPopFs (s : State) : Result :=
  runSimple (popSreg .fs) s

/-- POP GS (40_data_transfer.md R311). -/
def execPopGs (s : State) : Result :=
  runSimple (popSreg .gs) s

/-- PUSH rv (40_data_transfer.md R308). -/
def execPushRv (r : Reg) (s : State) : Result :=
  runSimple (pushReg s.vWidth r) s

/-- POP rv (40_data_transfer.md R310). -/
def execPopRv (r : Reg) (s : State) : Result :=
  runSimple (popReg s.vWidth r) s

/-- PUSHA/PUSHAD (40_data_transfer.md R312). -/
def execPusha (s : State) : Result :=
  runSimple (pushAllRegs s.vWidth) s

/-- POPA/POPAD (40_data_transfer.md R313). -/
def execPopa (s : State) : Result :=
  runSimple (popAllRegs s.vWidth) s

/-- PUSH immv (40_data_transfer.md R308). -/
def execPushImmv (imm : Dword) (s : State) : Result :=
  runSimple (push s.vWidth (immV s.vWidth imm)) s

/-- PUSH simm8 (40_data_transfer.md R308). -/
def execPushSimm8 (imm : Byte) (s : State) : Result :=
  runSimple (push s.vWidth (immS s.vWidth imm)) s

/-- XCHG r/m8, r8 (40_data_transfer.md R314). -/
def execXchgRm8R8 (rm : Rm) (r : Reg) (s : State) : Result :=
  runSimple (exchange .w8 rm r) s

/-- XCHG r/mv, rv (40_data_transfer.md R314). -/
def execXchgRmvRv (rm : Rm) (r : Reg) (s : State) : Result :=
  runSimple (exchange s.vWidth rm r) s

/-- MOV r/m8, r8 (40_data_transfer.md R303). -/
def execMovRm8R8 (rm : Rm) (r : Reg) (s : State) : Result :=
  runSimple (moveToRm .w8 rm r) s

/-- MOV r/mv, rv (40_data_transfer.md R303). -/
def execMovRmvRv (rm : Rm) (r : Reg) (s : State) : Result :=
  runSimple (moveToRm s.vWidth rm r) s

/-- MOV r8, r/m8 (40_data_transfer.md R303). -/
def execMovR8Rm8 (r : Reg) (rm : Rm) (s : State) : Result :=
  runSimple (moveToReg .w8 r rm) s

/-- MOV rv, r/mv (40_data_transfer.md R303). -/
def execMovRvRmv (r : Reg) (rm : Rm) (s : State) : Result :=
  runSimple (moveToReg s.vWidth r rm) s

/-- MOV r/m16, sreg (40_data_transfer.md R306). -/
def execMovRm16Sreg (rm : Rm) (sr : Sreg) (s : State) : Result :=
  runSimple (moveFromSreg rm sr) s

/-- LEA rv, m (40_data_transfer.md R330). -/
def execLea (r : Reg) (ea : EA) (s : State) : Result :=
  runSimple (loadAddress s.vWidth r ea) s

/-- MOV sreg, r/m16 (40_data_transfer.md R307). -/
def execMovSregRm16 (sr : Sreg) (rm : Rm) (s : State) : Result :=
  runSimple (moveToSreg sr rm) s

/-- POP r/mv (40_data_transfer.md R310). -/
def execPopRmv (rm : Rm) (s : State) : Result :=
  runSimple (popRm s.vWidth rm) s

/-- NOP (40_data_transfer.md R316). -/
def execNop (s : State) : Result :=
  runSimple (pure ()) s

/-- XCHG eAX, rv (40_data_transfer.md R314). -/
def execXchgEaxRv (r : Reg) (s : State) : Result :=
  runSimple (exchange s.vWidth (.reg r) .eax) s

/-- CBW/CWDE (40_data_transfer.md R322). -/
def execCbw (s : State) : Result :=
  runSimple (convertAcc s.os32) s

/-- CWD/CDQ (40_data_transfer.md R323). -/
def execCwd (s : State) : Result :=
  runSimple (spreadSign s.vWidth) s

/-- PUSHF/PUSHFD (40_data_transfer.md R342). -/
def execPushf (s : State) : Result :=
  runSimple (pushFlags s.vWidth) s

/-- POPF/POPFD (40_data_transfer.md R345). -/
def execPopf (s : State) : Result :=
  runInstr (popFlags s.vWidth) s

/-- SAHF (40_data_transfer.md R341). -/
def execSahf (s : State) : Result :=
  runSimple storeAh s

/-- LAHF (40_data_transfer.md R340). -/
def execLahf (s : State) : Result :=
  runSimple loadAh s

/-- MOV AL, moffs8 (40_data_transfer.md R305). -/
def execMovAlMoffs8 (off : Dword) (s : State) : Result :=
  runSimple (loadMoffs .w8 off) s

/-- MOV eAX, moffsv (40_data_transfer.md R305). -/
def execMovEaxMoffsv (off : Dword) (s : State) : Result :=
  runSimple (loadMoffs s.vWidth off) s

/-- MOV moffs8, AL (40_data_transfer.md R305). -/
def execMovMoffs8Al (off : Dword) (s : State) : Result :=
  runSimple (storeMoffs .w8 off) s

/-- MOV moffsv, eAX (40_data_transfer.md R305). -/
def execMovMoffsvEax (off : Dword) (s : State) : Result :=
  runSimple (storeMoffs s.vWidth off) s

/-- MOV r8, imm8 (40_data_transfer.md R304). -/
def execMovR8Imm8 (r : Reg) (imm : Byte) (s : State) : Result :=
  runSimple (setReg .w8 r imm) s

/-- MOV rv, immv (40_data_transfer.md R304). -/
def execMovRvImmv (r : Reg) (imm : Dword) (s : State) : Result :=
  runSimple (setReg s.vWidth r (immV s.vWidth imm)) s

/-- LES rv, m16:v (40_data_transfer.md R331). -/
def execLes (r : Reg) (ea : EA) (s : State) : Result :=
  runSimple (loadPointer .es r ea) s

/-- LDS rv, m16:v (40_data_transfer.md R331). -/
def execLds (r : Reg) (ea : EA) (s : State) : Result :=
  runSimple (loadPointer .ds r ea) s

/-- MOV r/m8, imm8 (40_data_transfer.md R304). -/
def execMovRm8Imm8 (rm : Rm) (imm : Byte) (s : State) : Result :=
  runSimple (writeRm .w8 rm imm) s

/-- MOV r/mv, immv (40_data_transfer.md R304). -/
def execMovRmvImmv (rm : Rm) (imm : Dword) (s : State) : Result :=
  runSimple (writeRm s.vWidth rm (immV s.vWidth imm)) s

/-- XLAT/XLATB (40_data_transfer.md R315). -/
def execXlat (s : State) : Result :=
  runSimple translateByte s

/-- IN AL, imm8 (40_data_transfer.md R325). -/
def execInAlImm8 (port : Byte) (s : State) : Result :=
  runSimple (inPort .w8 port.toNat) s

/-- IN eAX, imm8 (40_data_transfer.md R325). -/
def execInEaxImm8 (port : Byte) (s : State) : Result :=
  runSimple (inPort s.vWidth port.toNat) s

/-- OUT imm8, AL (40_data_transfer.md R326). -/
def execOutImm8Al (port : Byte) (s : State) : Result :=
  runSimple (outPort .w8 port.toNat) s

/-- OUT imm8, eAX (40_data_transfer.md R326). -/
def execOutImm8Eax (port : Byte) (s : State) : Result :=
  runSimple (outPort s.vWidth port.toNat) s

/-- IN AL, DX (40_data_transfer.md R325). -/
def execInAlDx (s : State) : Result :=
  runSimple (inPort .w8 s.portDx) s

/-- IN eAX, DX (40_data_transfer.md R325). -/
def execInEaxDx (s : State) : Result :=
  runSimple (inPort s.vWidth s.portDx) s

/-- OUT DX, AL (40_data_transfer.md R326). -/
def execOutDxAl (s : State) : Result :=
  runSimple (outPort .w8 s.portDx) s

/-- OUT DX, eAX (40_data_transfer.md R326). -/
def execOutDxEax (s : State) : Result :=
  runSimple (outPort s.vWidth s.portDx) s

/-- CMC (40_data_transfer.md R348). -/
def execCmc (s : State) : Result :=
  runSimple (updateFlags fun f => { f with cf := !f.cf }) s

/-- CLC (40_data_transfer.md R346). -/
def execClc (s : State) : Result :=
  runSimple (updateFlags fun f => { f with cf := false }) s

/-- STC (40_data_transfer.md R349). -/
def execStc (s : State) : Result :=
  runSimple (updateFlags fun f => { f with cf := true }) s

/-- CLD (40_data_transfer.md R347). -/
def execCld (s : State) : Result :=
  runSimple (updateFlags fun f => { f with df := false }) s

/-- STD (40_data_transfer.md R350). -/
def execStd (s : State) : Result :=
  runSimple (updateFlags fun f => { f with df := true }) s

/-- PUSH r/mv (40_data_transfer.md R308). -/
def execPushRmv (rm : Rm) (s : State) : Result :=
  runSimple (pushRm s.vWidth rm) s

/-- LSS rv, m16:v (40_data_transfer.md R331). -/
def execLss (r : Reg) (ea : EA) (s : State) : Result :=
  runSimple (loadPointer .ss r ea) s

/-- LFS rv, m16:v (40_data_transfer.md R331). -/
def execLfs (r : Reg) (ea : EA) (s : State) : Result :=
  runSimple (loadPointer .fs r ea) s

/-- LGS rv, m16:v (40_data_transfer.md R331). -/
def execLgs (r : Reg) (ea : EA) (s : State) : Result :=
  runSimple (loadPointer .gs r ea) s

/-- MOVZX rv, r/m8 (40_data_transfer.md R320). -/
def execMovzxRvRm8 (r : Reg) (rm : Rm) (s : State) : Result :=
  runSimple (moveZero r .w8 rm) s

/-- MOVZX r32, r/m16 (40_data_transfer.md R320). -/
def execMovzxR32Rm16 (r : Reg) (rm : Rm) (s : State) : Result :=
  runSimple (moveZero r .w16 rm) s

/-- MOVSX rv, r/m8 (40_data_transfer.md R321). -/
def execMovsxRvRm8 (r : Reg) (rm : Rm) (s : State) : Result :=
  runSimple (moveSign r .w8 rm) s

/-- MOVSX r32, r/m16 (40_data_transfer.md R321). -/
def execMovsxR32Rm16 (r : Reg) (rm : Rm) (s : State) : Result :=
  runSimple (moveSign r .w16 rm) s

end Sys2Proof.Machine
end

