-- ==== Sys2Proof/Machine/Control.lean ====
section
/-! DEFINITION. The program control instructions (45_control_transfer.md). -/

namespace Sys2Proof.Machine

/-! Transfers inside the segment. -/

/-- An offset cut to 16 bits when OS = 16 (45_control_transfer.md R461). -/
def State.osWrap (s : State) (v : Dword) : Dword := if s.os32 then v else (v.extractLsb' 0 16).setWidth 32

/-- NearTarget (45_control_transfer.md R461). -/
def State.nearTarget (s : State) (rel : Dword) : Dword := s.osWrap (s.nextEip + rel)

/-- The limit check of a new EIP (45_control_transfer.md R461). -/
def requireInCS (t : Dword) : M Unit := do
  let s ← get
  require (decide (t ≤ s.segs.cs.limit)) (.gp 0)

/-- SetEIP (45_control_transfer.md R461). -/
def setEip (t : Dword) : M Unit := do
  requireInCS t
  jumpTo t

/-- A relative jump if a condition holds, else on to the next instruction (45_control_transfer.md R463). -/
def jumpIf (taken : Bool) (rel : Dword) : M Done := do
  let s ← get
  if taken then setEip (s.nearTarget rel) else advance
  pure .plain

/-- Jcc (45_control_transfer.md R463, R464). -/
def jumpCond (c : Cond) (rel : Dword) : M Done := do
  let s ← get
  jumpIf (s.flags.holds c) rel

/-- SETcc (45_control_transfer.md R462). -/
def setCond (c : Cond) (rm : Rm) : M Unit := do
  let s ← get
  writeRm .w8 rm (if s.flags.holds c then 1 else 0)

/-- JMP near indirect (45_control_transfer.md R466). -/
def jumpRm (w : Width) (rm : Rm) : M Done := do
  let t ← readRm w rm
  setEip (t.setWidth 32)
  pure .plain

/-- A near call of a known target (45_control_transfer.md R467, R468). -/
def callNear (w : Width) (t : Dword) : M Done := do
  let s ← get
  requireInCS t
  push w (s.nextEip.setWidth w.bits)
  jumpTo t
  pure .plain

/-- CALL relative (45_control_transfer.md R467). -/
def callRelative (rel : Dword) : M Done := do
  let s ← get
  callNear s.vWidth (s.nearTarget rel)

/-- CALL near indirect: the operand is read and the target checked before the push is (45_control_transfer.md R468),
also where a device answers the read: the model's choice (log 45). -/
def callRm (w : Width) (rm : Rm) : M Done := do
  let t ← readRm w rm
  callNear w (t.setWidth 32)

/-- RET near, releasing `n` more bytes (45_control_transfer.md R469). -/
def returnNear (w : Width) (n : Word) : M Done := do
  let t ← peek w 0
  requireInCS (t.setWidth 32)
  moveStackPtr (BitVec.ofNat 32 (w.bytes + n.toNat))
  jumpTo (t.setWidth 32)
  pure .plain

/-- LOOP, LOOPE, LOOPNE: branch if the decremented count is not zero and the condition holds (45_control_transfer.md
R470 to R472). -/
def loopIf (cond : Flags → Bool) (rel : Byte) : M Done := do
  addAsReg .ecx (-1)
  let s ← get
  jumpIf (decide (s.asReg .ecx ≠ 0) && cond s.flags) (rel.signExtend 32)

/-- JCXZ and JECXZ (45_control_transfer.md R473). -/
def jumpCountZero (rel : Byte) : M Done := do
  let s ← get
  jumpIf (decide (s.asReg .ecx = 0)) (rel.signExtend 32)

/-! Transfers between segments in Protected Mode. -/

/-- What makes the transfer. -/
inductive FarKind where
  | jmp
  | call
deriving DecidableEq, Repr

/-- The kind of task switch it makes. -/
def FarKind.switch : FarKind → SwitchKind
  | .jmp => .jmp
  | .call => .call

/-- Commit a transfer that stays at its level: for CALL the return address is pushed as two items of `n` bytes
(45_control_transfer.md R481, R483). -/
def farSameLevel (kind : FarKind) (n : Nat) (sel : Word) (a : Dword) (d : Descriptor) (off : Dword) : M Done := do
  let s ← get
  if kind = .call then requireRoom n 2 else pure ()
  require (decide (off ≤ descLimit d)) (.gp 0)
  let frame ← if kind = .call then locatePushes n 2 1 else pure []
  let csAt ← locateAccessed a d
  if kind = .call then do
    let cs ← selectorSlot (n = 4) s.segs.cs.sel
    memWriteAll frame [cs, s.nextEip.toNat]
    moveStackPtr (-(BitVec.ofNat 32 (2 * n)))
  else pure ()
  markAccessed csAt
  commitCS sel d s.cpl
  jumpTo off
  pure .plain

/-- DirectCode (45_control_transfer.md R481). -/
def directCode (kind : FarKind) (sel : Word) (a : Dword) (d : Descriptor) (off : Dword) : M Done := do
  let s ← get
  require (if descConforming d then decide (descDpl d ≤ s.cpl)
    else decide (selRpl sel ≤ s.cpl) && descDpl d == s.cpl) (.gp (selCode sel))
  require (descP d) (.np (selCode sel))
  farSameLevel kind (itemBytes s.os32) sel a d (s.osWrap off)

/-- InnerCall (45_control_transfer.md R484): the parameters are located on the old stack, with the old SS and CPL, and read
once every check is made (92_eei_decisions.md D6). -/
def innerCall (g : Descriptor) (sel : Word) (a : Dword) (d : Descriptor) (off : Dword) : M Done := do
  let wide := descType g == 12
  let n := if wide then 4 else 2
  let inner ← innerStack (descDpl d)
  let s ← get
  let onNew : State := { s with segs := { s.segs with ss := SegReg.ofDesc inner.sel inner.desc } }
  let atNew : State := { onNew with regs := { onNew.regs with esp := onNew.stackSet inner.esp } }
  match atNew.roomFault n (4 + gateCount g) with
  | some e => raise e
  | none => pure ()
  require (decide (off ≤ descLimit d)) (.gp 0)
  let paramsAt ← locateItems n (gateCount g) 0
  switchStack inner
  commitCS sel d (descDpl d)
  let frame ← locatePushes n (4 + gateCount g) 1
  let ssAt ← locateAccessed inner.addr inner.desc
  let csAt ← locateAccessed a d
  let params ← memReadAll paramsAt
  let cs ← selectorSlot wide s.segs.cs.sel
  let items := [s.segs.ss.sel.toNat, s.regs.esp.toNat] ++ params.reverse ++ [cs, s.nextEip.toNat]
  markAccessed ssAt
  markAccessed csAt
  memWriteAll frame items
  moveStackPtr (-(BitVec.ofNat 32 (n * items.length)))
  jumpTo off
  pure .plain

/-- CallGate (45_control_transfer.md R483). The gate's size sizes what is pushed. -/
def callGate (kind : FarKind) (gsel : Word) (g : Descriptor) : M Done := do
  let s ← get
  require (decide (s.cpl ≤ descDpl g) && decide (selRpl gsel ≤ descDpl g)) (.gp (selCode gsel))
  require (descP g) (.np (selCode gsel))
  let sel := gateSelector g
  let off := gateOffset g (descType g == 12)
  require (!selNull sel) (.gp 0)
  let (a, d) ← findDesc sel .gp
  require (descIsCode d) (.gp (selCode sel))
  require (decide (descDpl d ≤ s.cpl)) (.gp (selCode sel))
  require (decide (kind = .call) || descConforming d || descDpl d == s.cpl) (.gp (selCode sel))
  require (descP d) (.np (selCode sel))
  if decide (kind = .call) && !descConforming d && decide (descDpl d < s.cpl) then innerCall g sel a d off
  else farSameLevel kind (if descType g = 12 then 4 else 2) sel a d off

/-- TssDirect (45_control_transfer.md R485). The outgoing task resumes after the instruction. -/
def tssDirect (kind : FarKind) (sel : Word) (d : Descriptor) : M Done := do
  let s ← get
  require (decide (s.cpl ≤ descDpl d) && decide (selRpl sel ≤ descDpl d)) (.gp (selCode sel))
  require (!selTi sel) (.gp (selCode sel))
  require (descP d) (.np (selCode sel))
  advance
  taskSwitch sel d kind.switch
  pure .silent

/-- TaskGate (45_control_transfer.md R485). -/
def taskGate (kind : FarKind) (gsel : Word) (g : Descriptor) : M Done := do
  let s ← get
  require (decide (s.cpl ≤ descDpl g) && decide (selRpl gsel ≤ descDpl g)) (.gp (selCode gsel))
  require (descP g) (.np (selCode gsel))
  let sel := gateSelector g
  require (!selNull sel && !selTi sel) (.gp (selCode sel))
  let (_, d) ← findDesc sel .gp
  require (!descS d && (descType d == 1 || descType d == 9)) (.gp (selCode sel))
  require (descP d) (.np (selCode sel))
  advance
  taskSwitch sel d kind.switch
  pure .silent

/-- FarTransfer (45_control_transfer.md R480). -/
def farTransfer (kind : FarKind) (sel : Word) (off : Dword) : M Done := do
  require (!selNull sel) (.gp 0)
  let (a, d) ← findDesc sel .gp
  if descS d then do
    require (descE d) (.gp (selCode sel))
    directCode kind sel a d off
  else match descType d with
    | 4 | 12 => callGate kind sel d
    | 5 => taskGate kind sel d
    | 1 | 9 => tssDirect kind sel d
    | _ => raise (.gp (selCode sel))

/-! Far transfers by mode. -/

/-- JMP far (45_control_transfer.md R477). -/
def jumpFar (sel : Word) (off : Dword) : M Done := do
  let s ← get
  if s.protMode then farTransfer .jmp sel off
  else do
    farLoad8086 sel (s.osWrap off)
    pure .plain

/-- CALL far (45_control_transfer.md R478). -/
def callFar (sel : Word) (off : Dword) : M Done := do
  let s ← get
  if s.protMode then farTransfer .call sel off
  else do
    let n := itemBytes s.os32
    requireInCS (s.osWrap off)
    requireRoom n 2
    let cs ← selectorSlot s.os32 s.segs.cs.sel
    pushAll n [cs, s.nextEip.toNat]
    farLoad8086 sel (s.osWrap off)
    pure .plain

/-- JMP far through memory (45_control_transfer.md R477). -/
def jumpFarM (ea : EA) : M Done := do
  let (sel, off) ← readFar ea
  jumpFar sel off

/-- CALL far through memory: the pointer is read before the push is checked, also from a device: the model's choice
(45_control_transfer.md R478, log 45). -/
def callFarM (ea : EA) : M Done := do
  let (sel, off) ← readFar ea
  callFar sel off

/-- RET far, releasing `n` more bytes (45_control_transfer.md R479, R486). -/
def returnFar (n : Word) : M Done := do
  let s ← get
  let z := itemBytes s.os32
  requireStack (2 * z)
  let vs ← stackItems z 2 0
  let off : Dword := BitVec.ofNat 32 (nthValue vs 0)
  let sel : Word := BitVec.ofNat 16 (nthValue vs 1)
  if s.protMode then returnCS sel off 2 n.toNat
  else do
    farLoad8086 sel off
    moveStackPtr (BitVec.ofNat 32 (2 * z + n.toNat))
  pure .plain

/-! Interrupt instructions. -/

/-- INT n: IOPL-sensitive in Virtual 8086 Mode (45_control_transfer.md R490). -/
def interruptN (n : Byte) : M Done := do
  requireIopl86
  softwareInterrupt n.toNat

/-- INTO (45_control_transfer.md R492). -/
def interruptOverflow : M Done := do
  let s ← get
  if s.flags.of then softwareInterrupt 4
  else do
    advance
    pure .plain

/-- CLI and STI need CPL not above IOPL in Protected Mode (45_control_transfer.md R493). -/
def requireIopl : M Unit := do
  let s ← get
  require (!s.cr0.pe || decide (s.cpl ≤ s.flags.iopl)) (.gp 0)

/-- CLI (45_control_transfer.md R493). -/
def clearIf : M Unit := do
  requireIopl
  updateFlags fun f => { f with ifl := false }

/-- STI: if IF was 0 interrupts wait for one more instruction (45_control_transfer.md R494). -/
def setIf : M Unit := do
  requireIopl
  modify fun s => { s with inhibit := s.inhibit || !s.flags.ifl, flags := { s.flags with ifl := true } }

/-! The meanings. -/

/-- JO rel8 (45_control_transfer.md R463). -/
def execJoRel8 (rel : Byte) (s : State) : Result :=
  runInstr (jumpCond .o (rel.signExtend 32)) s

/-- JNO rel8 (45_control_transfer.md R463). -/
def execJnoRel8 (rel : Byte) (s : State) : Result :=
  runInstr (jumpCond .no (rel.signExtend 32)) s

/-- JB/JNAE/JC rel8 (45_control_transfer.md R463). -/
def execJbRel8 (rel : Byte) (s : State) : Result :=
  runInstr (jumpCond .b (rel.signExtend 32)) s

/-- JAE/JNB/JNC rel8 (45_control_transfer.md R463). -/
def execJaeRel8 (rel : Byte) (s : State) : Result :=
  runInstr (jumpCond .ae (rel.signExtend 32)) s

/-- JE/JZ rel8 (45_control_transfer.md R463). -/
def execJeRel8 (rel : Byte) (s : State) : Result :=
  runInstr (jumpCond .e (rel.signExtend 32)) s

/-- JNE/JNZ rel8 (45_control_transfer.md R463). -/
def execJneRel8 (rel : Byte) (s : State) : Result :=
  runInstr (jumpCond .ne (rel.signExtend 32)) s

/-- JBE/JNA rel8 (45_control_transfer.md R463). -/
def execJbeRel8 (rel : Byte) (s : State) : Result :=
  runInstr (jumpCond .be (rel.signExtend 32)) s

/-- JA/JNBE rel8 (45_control_transfer.md R463). -/
def execJaRel8 (rel : Byte) (s : State) : Result :=
  runInstr (jumpCond .a (rel.signExtend 32)) s

/-- JS rel8 (45_control_transfer.md R463). -/
def execJsRel8 (rel : Byte) (s : State) : Result :=
  runInstr (jumpCond .s (rel.signExtend 32)) s

/-- JNS rel8 (45_control_transfer.md R463). -/
def execJnsRel8 (rel : Byte) (s : State) : Result :=
  runInstr (jumpCond .ns (rel.signExtend 32)) s

/-- JP/JPE rel8 (45_control_transfer.md R463). -/
def execJpRel8 (rel : Byte) (s : State) : Result :=
  runInstr (jumpCond .p (rel.signExtend 32)) s

/-- JNP/JPO rel8 (45_control_transfer.md R463). -/
def execJnpRel8 (rel : Byte) (s : State) : Result :=
  runInstr (jumpCond .np (rel.signExtend 32)) s

/-- JL/JNGE rel8 (45_control_transfer.md R463). -/
def execJlRel8 (rel : Byte) (s : State) : Result :=
  runInstr (jumpCond .l (rel.signExtend 32)) s

/-- JGE/JNL rel8 (45_control_transfer.md R463). -/
def execJgeRel8 (rel : Byte) (s : State) : Result :=
  runInstr (jumpCond .ge (rel.signExtend 32)) s

/-- JLE/JNG rel8 (45_control_transfer.md R463). -/
def execJleRel8 (rel : Byte) (s : State) : Result :=
  runInstr (jumpCond .le (rel.signExtend 32)) s

/-- JG/JNLE rel8 (45_control_transfer.md R463). -/
def execJgRel8 (rel : Byte) (s : State) : Result :=
  runInstr (jumpCond .g (rel.signExtend 32)) s

/-- CALL ptr16:v (45_control_transfer.md R478). -/
def execCallPtr (off : Dword) (sel : Word) (s : State) : Result :=
  runInstr (callFar sel off) s

/-- RET imm16 (near) (45_control_transfer.md R469). -/
def execRetNearImm16 (imm : Word) (s : State) : Result :=
  runInstr (returnNear s.vWidth imm) s

/-- RET (near) (45_control_transfer.md R469). -/
def execRetNear (s : State) : Result :=
  runInstr (returnNear s.vWidth 0) s

/-- RET imm16 (far) (45_control_transfer.md R479). -/
def execRetFarImm16 (imm : Word) (s : State) : Result :=
  runInstr (returnFar imm) s

/-- RET (far) (45_control_transfer.md R479). -/
def execRetFar (s : State) : Result :=
  runInstr (returnFar 0) s

/-- INT/3 (45_control_transfer.md R491). -/
def execInt3 (s : State) : Result :=
  runInstr (softwareInterrupt 3) s

/-- INT imm8 (45_control_transfer.md R490). -/
def execIntImm8 (n : Byte) (s : State) : Result :=
  runInstr (interruptN n) s

/-- INTO (45_control_transfer.md R492). -/
def execInto (s : State) : Result :=
  runInstr interruptOverflow s

/-- IRET/IRETD (45_control_transfer.md R488). -/
def execIret (s : State) : Result :=
  runInstr interruptReturn s

/-- LOOPNE/LOOPNZ rel8 (45_control_transfer.md R472). -/
def execLoopne (rel : Byte) (s : State) : Result :=
  runInstr (loopIf (fun f => !f.zf) rel) s

/-- LOOPE/LOOPZ rel8 (45_control_transfer.md R471). -/
def execLoope (rel : Byte) (s : State) : Result :=
  runInstr (loopIf (fun f => f.zf) rel) s

/-- LOOP rel8 (45_control_transfer.md R470). -/
def execLoop (rel : Byte) (s : State) : Result :=
  runInstr (loopIf (fun _ => true) rel) s

/-- JCXZ/JECXZ rel8 (45_control_transfer.md R473). -/
def execJcxz (rel : Byte) (s : State) : Result :=
  runInstr (jumpCountZero rel) s

/-- CALL relv (45_control_transfer.md R467). -/
def execCallRelv (rel : Dword) (s : State) : Result :=
  runInstr (callRelative rel) s

/-- JMP relv (45_control_transfer.md R465). -/
def execJmpRelv (rel : Dword) (s : State) : Result :=
  runInstr (jumpIf true rel) s

/-- JMP ptr16:v (45_control_transfer.md R477). -/
def execJmpPtr (off : Dword) (sel : Word) (s : State) : Result :=
  runInstr (jumpFar sel off) s

/-- JMP rel8 (45_control_transfer.md R465). -/
def execJmpRel8 (rel : Byte) (s : State) : Result :=
  runInstr (jumpIf true (rel.signExtend 32)) s

/-- CLI (45_control_transfer.md R493). -/
def execCli (s : State) : Result :=
  runSimple clearIf s

/-- STI (45_control_transfer.md R494). -/
def execSti (s : State) : Result :=
  runSimple setIf s

/-- CALL r/mv (near indirect) (45_control_transfer.md R468). -/
def execCallRmv (rm : Rm) (s : State) : Result :=
  runInstr (callRm s.vWidth rm) s

/-- CALL m16:v (far indirect) (45_control_transfer.md R478). -/
def execCallM (ea : EA) (s : State) : Result :=
  runInstr (callFarM ea) s

/-- JMP r/mv (near indirect) (45_control_transfer.md R466). -/
def execJmpRmv (rm : Rm) (s : State) : Result :=
  runInstr (jumpRm s.vWidth rm) s

/-- JMP m16:v (far indirect) (45_control_transfer.md R477). -/
def execJmpM (ea : EA) (s : State) : Result :=
  runInstr (jumpFarM ea) s

/-- JO relv (45_control_transfer.md R464). -/
def execJoRelv (rel : Dword) (s : State) : Result :=
  runInstr (jumpCond .o rel) s

/-- JNO relv (45_control_transfer.md R464). -/
def execJnoRelv (rel : Dword) (s : State) : Result :=
  runInstr (jumpCond .no rel) s

/-- JB/JNAE/JC relv (45_control_transfer.md R464). -/
def execJbRelv (rel : Dword) (s : State) : Result :=
  runInstr (jumpCond .b rel) s

/-- JAE/JNB/JNC relv (45_control_transfer.md R464). -/
def execJaeRelv (rel : Dword) (s : State) : Result :=
  runInstr (jumpCond .ae rel) s

/-- JE/JZ relv (45_control_transfer.md R464). -/
def execJeRelv (rel : Dword) (s : State) : Result :=
  runInstr (jumpCond .e rel) s

/-- JNE/JNZ relv (45_control_transfer.md R464). -/
def execJneRelv (rel : Dword) (s : State) : Result :=
  runInstr (jumpCond .ne rel) s

/-- JBE/JNA relv (45_control_transfer.md R464). -/
def execJbeRelv (rel : Dword) (s : State) : Result :=
  runInstr (jumpCond .be rel) s

/-- JA/JNBE relv (45_control_transfer.md R464). -/
def execJaRelv (rel : Dword) (s : State) : Result :=
  runInstr (jumpCond .a rel) s

/-- JS relv (45_control_transfer.md R464). -/
def execJsRelv (rel : Dword) (s : State) : Result :=
  runInstr (jumpCond .s rel) s

/-- JNS relv (45_control_transfer.md R464). -/
def execJnsRelv (rel : Dword) (s : State) : Result :=
  runInstr (jumpCond .ns rel) s

/-- JP/JPE relv (45_control_transfer.md R464). -/
def execJpRelv (rel : Dword) (s : State) : Result :=
  runInstr (jumpCond .p rel) s

/-- JNP/JPO relv (45_control_transfer.md R464). -/
def execJnpRelv (rel : Dword) (s : State) : Result :=
  runInstr (jumpCond .np rel) s

/-- JL/JNGE relv (45_control_transfer.md R464). -/
def execJlRelv (rel : Dword) (s : State) : Result :=
  runInstr (jumpCond .l rel) s

/-- JGE/JNL relv (45_control_transfer.md R464). -/
def execJgeRelv (rel : Dword) (s : State) : Result :=
  runInstr (jumpCond .ge rel) s

/-- JLE/JNG relv (45_control_transfer.md R464). -/
def execJleRelv (rel : Dword) (s : State) : Result :=
  runInstr (jumpCond .le rel) s

/-- JG/JNLE relv (45_control_transfer.md R464). -/
def execJgRelv (rel : Dword) (s : State) : Result :=
  runInstr (jumpCond .g rel) s

/-- SETO r/m8 (45_control_transfer.md R462). -/
def execSeto (rm : Rm) (s : State) : Result :=
  runSimple (setCond .o rm) s

/-- SETNO r/m8 (45_control_transfer.md R462). -/
def execSetno (rm : Rm) (s : State) : Result :=
  runSimple (setCond .no rm) s

/-- SETB/SETNAE/SETC r/m8 (45_control_transfer.md R462). -/
def execSetb (rm : Rm) (s : State) : Result :=
  runSimple (setCond .b rm) s

/-- SETAE/SETNB/SETNC r/m8 (45_control_transfer.md R462). -/
def execSetae (rm : Rm) (s : State) : Result :=
  runSimple (setCond .ae rm) s

/-- SETE/SETZ r/m8 (45_control_transfer.md R462). -/
def execSete (rm : Rm) (s : State) : Result :=
  runSimple (setCond .e rm) s

/-- SETNE/SETNZ r/m8 (45_control_transfer.md R462). -/
def execSetne (rm : Rm) (s : State) : Result :=
  runSimple (setCond .ne rm) s

/-- SETBE/SETNA r/m8 (45_control_transfer.md R462). -/
def execSetbe (rm : Rm) (s : State) : Result :=
  runSimple (setCond .be rm) s

/-- SETA/SETNBE r/m8 (45_control_transfer.md R462). -/
def execSeta (rm : Rm) (s : State) : Result :=
  runSimple (setCond .a rm) s

/-- SETS r/m8 (45_control_transfer.md R462). -/
def execSets (rm : Rm) (s : State) : Result :=
  runSimple (setCond .s rm) s

/-- SETNS r/m8 (45_control_transfer.md R462). -/
def execSetns (rm : Rm) (s : State) : Result :=
  runSimple (setCond .ns rm) s

/-- SETP/SETPE r/m8 (45_control_transfer.md R462). -/
def execSetp (rm : Rm) (s : State) : Result :=
  runSimple (setCond .p rm) s

/-- SETNP/SETPO r/m8 (45_control_transfer.md R462). -/
def execSetnp (rm : Rm) (s : State) : Result :=
  runSimple (setCond .np rm) s

/-- SETL/SETNGE r/m8 (45_control_transfer.md R462). -/
def execSetl (rm : Rm) (s : State) : Result :=
  runSimple (setCond .l rm) s

/-- SETGE/SETNL r/m8 (45_control_transfer.md R462). -/
def execSetge (rm : Rm) (s : State) : Result :=
  runSimple (setCond .ge rm) s

/-- SETLE/SETNG r/m8 (45_control_transfer.md R462). -/
def execSetle (rm : Rm) (s : State) : Result :=
  runSimple (setCond .le rm) s

/-- SETG/SETNLE r/m8 (45_control_transfer.md R462). -/
def execSetg (rm : Rm) (s : State) : Result :=
  runSimple (setCond .g rm) s

end Sys2Proof.Machine
end

