-- ==== Sys2Proof/Machine/HighLevel.lean ====
section
/-! DEFINITION. BOUND, ENTER and LEAVE (46_high_level.md). -/

namespace Sys2Proof.Machine

/-! Shared operations. -/

/-- BOUND (46_high_level.md R500). -/
def checkBounds (w : Width) (r : Reg) (ea : EA) : M Unit := do
  let i ← getReg w r
  let (lo, hi) ← readParts ea w.bytes w.bytes
  require (decide ((BitVec.ofNat w.bits lo).toInt ≤ i.toInt) && decide (i.toInt ≤ (BitVec.ofNat w.bits hi).toInt)) .br

/-- The places ENTER copies display pointers from and to: the `i`-th read below the frame pointer, then the push
after it, for `count` levels from `i` on (46_high_level.md R501). -/
def locateDisplay (n : Nat) : (count i : Nat) → M (List (List Dword × List Dword))
  | 0, _ => pure []
  | c + 1, i => do
    let s ← get
    let src ← segLocate .ss (s.stackWrap (s.regs.ebp - BitVec.ofNat 32 (n * i))) n false
    let dst ← pushLocate n (i + 1)
    let rest ← locateDisplay n c (i + 1)
    pure ((src, dst) :: rest)

/-- Copy located display pointers one after the other. -/
def copyDisplay : List (List Dword × List Dword) → M Unit
  | [] => pure ()
  | (src, dst) :: rest => do
    let v ← memRead src
    memWrite dst v
    copyDisplay rest

/-- The frame pointer after the display was copied: (E)BP by the B bit of SS moved down (46_high_level.md R501). -/
def State.displayEnd (s : State) (down : Dword) : Dword :=
  if s.segs.ss.big then s.regs.ebp - down else setLow16 s.regs.ebp ((s.regs.ebp - down).extractLsb' 0 16)

/-- ENTER: every place it writes or reads is checked before anything changes (46_high_level.md R501,
92_eei_decisions.md D6). With OS = 32 and a 16-bit stack pointer the frame pointer pushed and loaded into EBP is SP
zero-extended: the model's choice (log 43). -/
def enterFrame (w : Width) (size : Word) (level8 : Byte) : M Unit := do
  let s ← get
  let level := level8.toNat % 32
  let n := w.bytes
  let first ← pushLocate n 1
  let display ← locateDisplay n (level - 1) 1
  let last ← if level = 0 then pure [] else pushLocate n (level + 1)
  let frame := s.stackWrap (s.stackPtr - BitVec.ofNat 32 n)
  memWrite first (s.regs.read w .ebp).toNat
  copyDisplay display
  memWrite last frame.toNat
  modify fun u => { u with regs := { u.regs with ebp := s.displayEnd (BitVec.ofNat 32 (n * (level - 1))) } }
  setReg w .ebp (frame.setWidth w.bits)
  moveStackPtr (-(BitVec.ofNat 32 (n * (if level = 0 then 1 else level + 1)) + size.setWidth 32))

/-- LEAVE (46_high_level.md R502). -/
def leaveFrame (w : Width) : M Unit := do
  let s ← get
  let t := s.stackWrap s.regs.ebp
  let v ← segRead .ss t w
  setStackPtr (t + BitVec.ofNat 32 w.bytes)
  setReg w .ebp v

/-! The meanings. -/

/-- BOUND rv, m (46_high_level.md R500). -/
def execBound (r : Reg) (ea : EA) (s : State) : Result :=
  runSimple (checkBounds s.vWidth r ea) s

/-- ENTER imm16, imm8 (46_high_level.md R501). -/
def execEnter (size : Word) (level : Byte) (s : State) : Result :=
  runSimple (enterFrame s.vWidth size level) s

/-- LEAVE (46_high_level.md R502). -/
def execLeave (s : State) : Result :=
  runSimple (leaveFrame s.vWidth) s

end Sys2Proof.Machine
end

