-- ==== Sys2Proof/Machine/Logic.lean ====
section
/-! DEFINITION. The logical, shift and rotate instructions (43_logical_shift_rotate.md). -/

namespace Sys2Proof.Machine

/-! Shared operations. -/

/-- The count: its low five bits (43_logical_shift_rotate.md R430). -/
def shiftCount (count : Byte) : Nat := (count &&& 0x1F).toNat

/-- What a shift or rotate does with its flags: `finishShift` or `finishRotate`. -/
abbrev ShiftEnd := {n : Nat} → Nat → Shifted n → M (BitVec n)

/-- A shift or rotate of an r/m operand. A count of 0 leaves the operand as it is; R430 says it "may be written back".
The model's choice (log 41): it is located for writing, so its page gets the D bit and a data breakpoint on writes
matches (60_exceptions.md R681), but no write cycle is made (43_logical_shift_rotate.md R430). -/
def shiftRm (w : Width) (op : Shift) (ends : ShiftEnd) (rm : Rm) (count : Byte) : M Unit := do
  let p ← locate w rm true
  let a ← getPlace w p
  let s ← get
  if shiftCount count = 0 then pure ()
  else do
    let v ← ends (shiftCount count) (op s.flags.cf a (shiftCount count))
    putPlace w p v

/-- A shift or rotate by CL (43_logical_shift_rotate.md R430). -/
def shiftRmCl (w : Width) (op : Shift) (ends : ShiftEnd) (rm : Rm) : M Unit := do
  let c ← getReg .w8 .ecx
  shiftRm w op ends rm c

/-- SHLD and SHRD (43_logical_shift_rotate.md R434, R435): a count of 0 as in `shiftRm`, the model's choice (log 41);
above the width the result and all status flags are free
(93_implementation_defined.md U26). -/
def doubleShift (w : Width) (f : {n : Nat} → BitVec n → BitVec n → Nat → Shifted n) (rm : Rm) (r : Reg)
    (count : Byte) : M Unit := do
  let p ← locate w rm true
  let a ← getPlace w p
  let b ← getReg w r
  if shiftCount count = 0 then pure ()
  else if w.bits < shiftCount count then do
    let v ← draw w.bits
    freeStatus
    putPlace w p v
  else do
    let v ← finishShift (shiftCount count) (f a b (shiftCount count))
    putPlace w p v

/-- SHLD and SHRD by CL. -/
def doubleShiftCl (w : Width) (f : {n : Nat} → BitVec n → BitVec n → Nat → Shifted n) (rm : Rm) (r : Reg) :
    M Unit := do
  let c ← getReg .w8 .ecx
  doubleShift w f rm r c

/-! The meanings. -/

/-- OR r/m8, r8 (43_logical_shift_rotate.md R423). -/
def execOrRm8R8 (rm : Rm) (r : Reg) (s : State) : Result :=
  runSimple (aluRmReg .w8 opOr rm r) s

/-- OR r/mv, rv (43_logical_shift_rotate.md R423). -/
def execOrRmvRv (rm : Rm) (r : Reg) (s : State) : Result :=
  runSimple (aluRmReg s.vWidth opOr rm r) s

/-- OR r8, r/m8 (43_logical_shift_rotate.md R423). -/
def execOrR8Rm8 (r : Reg) (rm : Rm) (s : State) : Result :=
  runSimple (aluRegRm .w8 opOr r rm) s

/-- OR rv, r/mv (43_logical_shift_rotate.md R423). -/
def execOrRvRmv (r : Reg) (rm : Rm) (s : State) : Result :=
  runSimple (aluRegRm s.vWidth opOr r rm) s

/-- OR AL, imm8 (43_logical_shift_rotate.md R423). -/
def execOrAlImm8 (imm : Byte) (s : State) : Result :=
  runSimple (aluTo .w8 opOr (.reg .eax) imm) s

/-- OR eAX, immv (43_logical_shift_rotate.md R423). -/
def execOrEaxImmv (imm : Dword) (s : State) : Result :=
  runSimple (aluTo s.vWidth opOr (.reg .eax) (immV s.vWidth imm)) s

/-- OR r/m8, imm8 (43_logical_shift_rotate.md R423). -/
def execOrRm8Imm8 (rm : Rm) (imm : Byte) (s : State) : Result :=
  runSimple (aluTo .w8 opOr rm imm) s

/-- OR r/mv, immv (43_logical_shift_rotate.md R423). -/
def execOrRmvImmv (rm : Rm) (imm : Dword) (s : State) : Result :=
  runSimple (aluTo s.vWidth opOr rm (immV s.vWidth imm)) s

/-- OR r/mv, simm8 (43_logical_shift_rotate.md R423). -/
def execOrRmvSimm8 (rm : Rm) (imm : Byte) (s : State) : Result :=
  runSimple (aluTo s.vWidth opOr rm (immS s.vWidth imm)) s

/-- AND r/m8, r8 (43_logical_shift_rotate.md R422). -/
def execAndRm8R8 (rm : Rm) (r : Reg) (s : State) : Result :=
  runSimple (aluRmReg .w8 opAnd rm r) s

/-- AND r/mv, rv (43_logical_shift_rotate.md R422). -/
def execAndRmvRv (rm : Rm) (r : Reg) (s : State) : Result :=
  runSimple (aluRmReg s.vWidth opAnd rm r) s

/-- AND r8, r/m8 (43_logical_shift_rotate.md R422). -/
def execAndR8Rm8 (r : Reg) (rm : Rm) (s : State) : Result :=
  runSimple (aluRegRm .w8 opAnd r rm) s

/-- AND rv, r/mv (43_logical_shift_rotate.md R422). -/
def execAndRvRmv (r : Reg) (rm : Rm) (s : State) : Result :=
  runSimple (aluRegRm s.vWidth opAnd r rm) s

/-- AND AL, imm8 (43_logical_shift_rotate.md R422). -/
def execAndAlImm8 (imm : Byte) (s : State) : Result :=
  runSimple (aluTo .w8 opAnd (.reg .eax) imm) s

/-- AND eAX, immv (43_logical_shift_rotate.md R422). -/
def execAndEaxImmv (imm : Dword) (s : State) : Result :=
  runSimple (aluTo s.vWidth opAnd (.reg .eax) (immV s.vWidth imm)) s

/-- AND r/m8, imm8 (43_logical_shift_rotate.md R422). -/
def execAndRm8Imm8 (rm : Rm) (imm : Byte) (s : State) : Result :=
  runSimple (aluTo .w8 opAnd rm imm) s

/-- AND r/mv, immv (43_logical_shift_rotate.md R422). -/
def execAndRmvImmv (rm : Rm) (imm : Dword) (s : State) : Result :=
  runSimple (aluTo s.vWidth opAnd rm (immV s.vWidth imm)) s

/-- AND r/mv, simm8 (43_logical_shift_rotate.md R422). -/
def execAndRmvSimm8 (rm : Rm) (imm : Byte) (s : State) : Result :=
  runSimple (aluTo s.vWidth opAnd rm (immS s.vWidth imm)) s

/-- XOR r/m8, r8 (43_logical_shift_rotate.md R424). -/
def execXorRm8R8 (rm : Rm) (r : Reg) (s : State) : Result :=
  runSimple (aluRmReg .w8 opXor rm r) s

/-- XOR r/mv, rv (43_logical_shift_rotate.md R424). -/
def execXorRmvRv (rm : Rm) (r : Reg) (s : State) : Result :=
  runSimple (aluRmReg s.vWidth opXor rm r) s

/-- XOR r8, r/m8 (43_logical_shift_rotate.md R424). -/
def execXorR8Rm8 (r : Reg) (rm : Rm) (s : State) : Result :=
  runSimple (aluRegRm .w8 opXor r rm) s

/-- XOR rv, r/mv (43_logical_shift_rotate.md R424). -/
def execXorRvRmv (r : Reg) (rm : Rm) (s : State) : Result :=
  runSimple (aluRegRm s.vWidth opXor r rm) s

/-- XOR AL, imm8 (43_logical_shift_rotate.md R424). -/
def execXorAlImm8 (imm : Byte) (s : State) : Result :=
  runSimple (aluTo .w8 opXor (.reg .eax) imm) s

/-- XOR eAX, immv (43_logical_shift_rotate.md R424). -/
def execXorEaxImmv (imm : Dword) (s : State) : Result :=
  runSimple (aluTo s.vWidth opXor (.reg .eax) (immV s.vWidth imm)) s

/-- XOR r/m8, imm8 (43_logical_shift_rotate.md R424). -/
def execXorRm8Imm8 (rm : Rm) (imm : Byte) (s : State) : Result :=
  runSimple (aluTo .w8 opXor rm imm) s

/-- XOR r/mv, immv (43_logical_shift_rotate.md R424). -/
def execXorRmvImmv (rm : Rm) (imm : Dword) (s : State) : Result :=
  runSimple (aluTo s.vWidth opXor rm (immV s.vWidth imm)) s

/-- XOR r/mv, simm8 (43_logical_shift_rotate.md R424). -/
def execXorRmvSimm8 (rm : Rm) (imm : Byte) (s : State) : Result :=
  runSimple (aluTo s.vWidth opXor rm (immS s.vWidth imm)) s

/-- TEST r/m8, r8 (43_logical_shift_rotate.md R425). -/
def execTestRm8R8 (rm : Rm) (r : Reg) (s : State) : Result :=
  runSimple (testRmReg .w8 opAnd rm r) s

/-- TEST r/mv, rv (43_logical_shift_rotate.md R425). -/
def execTestRmvRv (rm : Rm) (r : Reg) (s : State) : Result :=
  runSimple (testRmReg s.vWidth opAnd rm r) s

/-- TEST AL, imm8 (43_logical_shift_rotate.md R425). -/
def execTestAlImm8 (imm : Byte) (s : State) : Result :=
  runSimple (testTo .w8 opAnd (.reg .eax) imm) s

/-- TEST eAX, immv (43_logical_shift_rotate.md R425). -/
def execTestEaxImmv (imm : Dword) (s : State) : Result :=
  runSimple (testTo s.vWidth opAnd (.reg .eax) (immV s.vWidth imm)) s

/-- ROL r/m8, imm8 (43_logical_shift_rotate.md R440). -/
def execRolRm8Imm8 (rm : Rm) (imm : Byte) (s : State) : Result :=
  runSimple (shiftRm .w8 shiftRol finishRotate rm imm) s

/-- ROL r/mv, imm8 (43_logical_shift_rotate.md R440). -/
def execRolRmvImm8 (rm : Rm) (imm : Byte) (s : State) : Result :=
  runSimple (shiftRm s.vWidth shiftRol finishRotate rm imm) s

/-- ROL r/m8, 1 (43_logical_shift_rotate.md R440). -/
def execRolRm8One (rm : Rm) (s : State) : Result :=
  runSimple (shiftRm .w8 shiftRol finishRotate rm 1) s

/-- ROL r/mv, 1 (43_logical_shift_rotate.md R440). -/
def execRolRmvOne (rm : Rm) (s : State) : Result :=
  runSimple (shiftRm s.vWidth shiftRol finishRotate rm 1) s

/-- ROL r/m8, CL (43_logical_shift_rotate.md R440). -/
def execRolRm8Cl (rm : Rm) (s : State) : Result :=
  runSimple (shiftRmCl .w8 shiftRol finishRotate rm) s

/-- ROL r/mv, CL (43_logical_shift_rotate.md R440). -/
def execRolRmvCl (rm : Rm) (s : State) : Result :=
  runSimple (shiftRmCl s.vWidth shiftRol finishRotate rm) s

/-- ROR r/m8, imm8 (43_logical_shift_rotate.md R441). -/
def execRorRm8Imm8 (rm : Rm) (imm : Byte) (s : State) : Result :=
  runSimple (shiftRm .w8 shiftRor finishRotate rm imm) s

/-- ROR r/mv, imm8 (43_logical_shift_rotate.md R441). -/
def execRorRmvImm8 (rm : Rm) (imm : Byte) (s : State) : Result :=
  runSimple (shiftRm s.vWidth shiftRor finishRotate rm imm) s

/-- ROR r/m8, 1 (43_logical_shift_rotate.md R441). -/
def execRorRm8One (rm : Rm) (s : State) : Result :=
  runSimple (shiftRm .w8 shiftRor finishRotate rm 1) s

/-- ROR r/mv, 1 (43_logical_shift_rotate.md R441). -/
def execRorRmvOne (rm : Rm) (s : State) : Result :=
  runSimple (shiftRm s.vWidth shiftRor finishRotate rm 1) s

/-- ROR r/m8, CL (43_logical_shift_rotate.md R441). -/
def execRorRm8Cl (rm : Rm) (s : State) : Result :=
  runSimple (shiftRmCl .w8 shiftRor finishRotate rm) s

/-- ROR r/mv, CL (43_logical_shift_rotate.md R441). -/
def execRorRmvCl (rm : Rm) (s : State) : Result :=
  runSimple (shiftRmCl s.vWidth shiftRor finishRotate rm) s

/-- RCL r/m8, imm8 (43_logical_shift_rotate.md R442). -/
def execRclRm8Imm8 (rm : Rm) (imm : Byte) (s : State) : Result :=
  runSimple (shiftRm .w8 shiftRcl finishRotate rm imm) s

/-- RCL r/mv, imm8 (43_logical_shift_rotate.md R442). -/
def execRclRmvImm8 (rm : Rm) (imm : Byte) (s : State) : Result :=
  runSimple (shiftRm s.vWidth shiftRcl finishRotate rm imm) s

/-- RCL r/m8, 1 (43_logical_shift_rotate.md R442). -/
def execRclRm8One (rm : Rm) (s : State) : Result :=
  runSimple (shiftRm .w8 shiftRcl finishRotate rm 1) s

/-- RCL r/mv, 1 (43_logical_shift_rotate.md R442). -/
def execRclRmvOne (rm : Rm) (s : State) : Result :=
  runSimple (shiftRm s.vWidth shiftRcl finishRotate rm 1) s

/-- RCL r/m8, CL (43_logical_shift_rotate.md R442). -/
def execRclRm8Cl (rm : Rm) (s : State) : Result :=
  runSimple (shiftRmCl .w8 shiftRcl finishRotate rm) s

/-- RCL r/mv, CL (43_logical_shift_rotate.md R442). -/
def execRclRmvCl (rm : Rm) (s : State) : Result :=
  runSimple (shiftRmCl s.vWidth shiftRcl finishRotate rm) s

/-- RCR r/m8, imm8 (43_logical_shift_rotate.md R443). -/
def execRcrRm8Imm8 (rm : Rm) (imm : Byte) (s : State) : Result :=
  runSimple (shiftRm .w8 shiftRcr finishRotate rm imm) s

/-- RCR r/mv, imm8 (43_logical_shift_rotate.md R443). -/
def execRcrRmvImm8 (rm : Rm) (imm : Byte) (s : State) : Result :=
  runSimple (shiftRm s.vWidth shiftRcr finishRotate rm imm) s

/-- RCR r/m8, 1 (43_logical_shift_rotate.md R443). -/
def execRcrRm8One (rm : Rm) (s : State) : Result :=
  runSimple (shiftRm .w8 shiftRcr finishRotate rm 1) s

/-- RCR r/mv, 1 (43_logical_shift_rotate.md R443). -/
def execRcrRmvOne (rm : Rm) (s : State) : Result :=
  runSimple (shiftRm s.vWidth shiftRcr finishRotate rm 1) s

/-- RCR r/m8, CL (43_logical_shift_rotate.md R443). -/
def execRcrRm8Cl (rm : Rm) (s : State) : Result :=
  runSimple (shiftRmCl .w8 shiftRcr finishRotate rm) s

/-- RCR r/mv, CL (43_logical_shift_rotate.md R443). -/
def execRcrRmvCl (rm : Rm) (s : State) : Result :=
  runSimple (shiftRmCl s.vWidth shiftRcr finishRotate rm) s

/-- SHL/SAL r/m8, imm8 (43_logical_shift_rotate.md R431). -/
def execShlRm8Imm8 (rm : Rm) (imm : Byte) (s : State) : Result :=
  runSimple (shiftRm .w8 shiftShl finishShift rm imm) s

/-- SHL/SAL r/mv, imm8 (43_logical_shift_rotate.md R431). -/
def execShlRmvImm8 (rm : Rm) (imm : Byte) (s : State) : Result :=
  runSimple (shiftRm s.vWidth shiftShl finishShift rm imm) s

/-- SHL/SAL r/m8, 1 (43_logical_shift_rotate.md R431). -/
def execShlRm8One (rm : Rm) (s : State) : Result :=
  runSimple (shiftRm .w8 shiftShl finishShift rm 1) s

/-- SHL/SAL r/mv, 1 (43_logical_shift_rotate.md R431). -/
def execShlRmvOne (rm : Rm) (s : State) : Result :=
  runSimple (shiftRm s.vWidth shiftShl finishShift rm 1) s

/-- SHL/SAL r/m8, CL (43_logical_shift_rotate.md R431). -/
def execShlRm8Cl (rm : Rm) (s : State) : Result :=
  runSimple (shiftRmCl .w8 shiftShl finishShift rm) s

/-- SHL/SAL r/mv, CL (43_logical_shift_rotate.md R431). -/
def execShlRmvCl (rm : Rm) (s : State) : Result :=
  runSimple (shiftRmCl s.vWidth shiftShl finishShift rm) s

/-- SHR r/m8, imm8 (43_logical_shift_rotate.md R432). -/
def execShrRm8Imm8 (rm : Rm) (imm : Byte) (s : State) : Result :=
  runSimple (shiftRm .w8 shiftShr finishShift rm imm) s

/-- SHR r/mv, imm8 (43_logical_shift_rotate.md R432). -/
def execShrRmvImm8 (rm : Rm) (imm : Byte) (s : State) : Result :=
  runSimple (shiftRm s.vWidth shiftShr finishShift rm imm) s

/-- SHR r/m8, 1 (43_logical_shift_rotate.md R432). -/
def execShrRm8One (rm : Rm) (s : State) : Result :=
  runSimple (shiftRm .w8 shiftShr finishShift rm 1) s

/-- SHR r/mv, 1 (43_logical_shift_rotate.md R432). -/
def execShrRmvOne (rm : Rm) (s : State) : Result :=
  runSimple (shiftRm s.vWidth shiftShr finishShift rm 1) s

/-- SHR r/m8, CL (43_logical_shift_rotate.md R432). -/
def execShrRm8Cl (rm : Rm) (s : State) : Result :=
  runSimple (shiftRmCl .w8 shiftShr finishShift rm) s

/-- SHR r/mv, CL (43_logical_shift_rotate.md R432). -/
def execShrRmvCl (rm : Rm) (s : State) : Result :=
  runSimple (shiftRmCl s.vWidth shiftShr finishShift rm) s

/-- SAR r/m8, imm8 (43_logical_shift_rotate.md R433). -/
def execSarRm8Imm8 (rm : Rm) (imm : Byte) (s : State) : Result :=
  runSimple (shiftRm .w8 shiftSar finishShift rm imm) s

/-- SAR r/mv, imm8 (43_logical_shift_rotate.md R433). -/
def execSarRmvImm8 (rm : Rm) (imm : Byte) (s : State) : Result :=
  runSimple (shiftRm s.vWidth shiftSar finishShift rm imm) s

/-- SAR r/m8, 1 (43_logical_shift_rotate.md R433). -/
def execSarRm8One (rm : Rm) (s : State) : Result :=
  runSimple (shiftRm .w8 shiftSar finishShift rm 1) s

/-- SAR r/mv, 1 (43_logical_shift_rotate.md R433). -/
def execSarRmvOne (rm : Rm) (s : State) : Result :=
  runSimple (shiftRm s.vWidth shiftSar finishShift rm 1) s

/-- SAR r/m8, CL (43_logical_shift_rotate.md R433). -/
def execSarRm8Cl (rm : Rm) (s : State) : Result :=
  runSimple (shiftRmCl .w8 shiftSar finishShift rm) s

/-- SAR r/mv, CL (43_logical_shift_rotate.md R433). -/
def execSarRmvCl (rm : Rm) (s : State) : Result :=
  runSimple (shiftRmCl s.vWidth shiftSar finishShift rm) s

/-- TEST r/m8, imm8 (43_logical_shift_rotate.md R425). -/
def execTestRm8Imm8 (rm : Rm) (imm : Byte) (s : State) : Result :=
  runSimple (testTo .w8 opAnd rm imm) s

/-- NOT r/m8 (43_logical_shift_rotate.md R421). -/
def execNotRm8 (rm : Rm) (s : State) : Result :=
  runSimple (unaryRm .w8 opNot rm) s

/-- TEST r/mv, immv (43_logical_shift_rotate.md R425). -/
def execTestRmvImmv (rm : Rm) (imm : Dword) (s : State) : Result :=
  runSimple (testTo s.vWidth opAnd rm (immV s.vWidth imm)) s

/-- NOT r/mv (43_logical_shift_rotate.md R421). -/
def execNotRmv (rm : Rm) (s : State) : Result :=
  runSimple (unaryRm s.vWidth opNot rm) s

/-- SHLD r/mv, rv, imm8 (43_logical_shift_rotate.md R434). -/
def execShldImm8 (rm : Rm) (r : Reg) (imm : Byte) (s : State) : Result :=
  runSimple (doubleShift s.vWidth doubleLeft rm r imm) s

/-- SHLD r/mv, rv, CL (43_logical_shift_rotate.md R434). -/
def execShldCl (rm : Rm) (r : Reg) (s : State) : Result :=
  runSimple (doubleShiftCl s.vWidth doubleLeft rm r) s

/-- SHRD r/mv, rv, imm8 (43_logical_shift_rotate.md R435). -/
def execShrdImm8 (rm : Rm) (r : Reg) (imm : Byte) (s : State) : Result :=
  runSimple (doubleShift s.vWidth doubleRight rm r imm) s

/-- SHRD r/mv, rv, CL (43_logical_shift_rotate.md R435). -/
def execShrdCl (rm : Rm) (r : Reg) (s : State) : Result :=
  runSimple (doubleShiftCl s.vWidth doubleRight rm r) s

end Sys2Proof.Machine
end

