-- ==== Sys2Proof/Machine/Prefixes.lean ====
section
/-! DEFINITION. The prefix bytes: each only records itself in the instruction in progress (30_encoding.md R202 to
R207, log 6). The last segment override and the last repeat prefix win; 66H and 67H count once
(93_implementation_defined.md U20). -/

namespace Sys2Proof.Machine

/-- Change what is decoded of the instruction in progress. -/
def recordPrefix (f : InProgress → InProgress) (s : State) : Result := .next { s with dec := f s.dec }

/-- ES: (30_encoding.md R203). -/
def execSegEs (s : State) : Result :=
  recordPrefix (fun d => { d with seg := some .es }) s

/-- CS: (30_encoding.md R203). -/
def execSegCs (s : State) : Result :=
  recordPrefix (fun d => { d with seg := some .cs }) s

/-- SS: (30_encoding.md R203). -/
def execSegSs (s : State) : Result :=
  recordPrefix (fun d => { d with seg := some .ss }) s

/-- DS: (30_encoding.md R203). -/
def execSegDs (s : State) : Result :=
  recordPrefix (fun d => { d with seg := some .ds }) s

/-- FS: (30_encoding.md R203). -/
def execSegFs (s : State) : Result :=
  recordPrefix (fun d => { d with seg := some .fs }) s

/-- GS: (30_encoding.md R203). -/
def execSegGs (s : State) : Result :=
  recordPrefix (fun d => { d with seg := some .gs }) s

/-- operand/size (30_encoding.md R206). -/
def execOpSize (s : State) : Result :=
  recordPrefix (fun d => { d with opSize := true }) s

/-- address/size (30_encoding.md R207). -/
def execAddrSize (s : State) : Result :=
  recordPrefix (fun d => { d with addrSize := true }) s

/-- LOCK (48_processor_control.md R544). -/
def execLockPrefix (s : State) : Result :=
  recordPrefix (fun d => { d with lock := true }) s

/-- REPNE/REPNZ (42_string.md R401). -/
def execRepne (s : State) : Result :=
  recordPrefix (fun d => { d with rep := some .repne }) s

/-- REP/REPE/REPZ (42_string.md R401). -/
def execRep (s : State) : Result :=
  recordPrefix (fun d => { d with rep := some .repe }) s

end Sys2Proof.Machine
end

