-- ==== Sys2Proof/Machine/Processor.lean ====
section
/-! DEFINITION. HLT, WAIT and ESC (48_processor_control.md). -/

namespace Sys2Proof.Machine

/-! Shared operations. -/

/-- HLT. The boundary after it is the last at which a data breakpoint matched before can be reported until the halt
ends, so each one still held is decided here (48_processor_control.md R541, 60_exceptions.md R630, R686, log 22). -/
def halt : M Unit := do
  requirePrivileged
  modify State.decideHeld
  modify fun s => { s with run := .halted }

/-- WAIT: with BUSY# asserted the step ends with EIP still at the WAIT (48_processor_control.md R542, log 37). -/
def waitBusy : M Done := do
  let s ← get
  require (!(s.cr0.ts && s.cr0.mp)) .nm
  if s.pins.busy then pure .silent
  else do
    require (!s.pins.error) .mf
    advance
    pure .plain

/-- The processor's part of ESC: #NM with EM or TS, else outside the spec (48_processor_control.md R543, log 16). -/
def escape : M Done := do
  let s ← get
  require (!(s.cr0.em || s.cr0.ts)) .nm
  refuse .escWithoutEmulation

/-! The meanings. -/

/-- WAIT (48_processor_control.md R542). -/
def execWait (s : State) : Result :=
  runInstr waitBusy s

/-- ESC coprocessor opcode, r/m (48_processor_control.md R543). -/
def execEsc (_op : BitVec 3) (_ext : BitVec 3) (_rm : Rm) (s : State) : Result :=
  runInstr escape s

/-- HLT (48_processor_control.md R541). -/
def execHlt (s : State) : Result :=
  runSimple halt s

end Sys2Proof.Machine
end

