-- ==== Sys2Proof/Machine/Protection.lean ====
section
/-! DEFINITION. The system register instructions and the pointer tests (47_protection_model.md). -/

namespace Sys2Proof.Machine

/-! Descriptor table registers. -/

/-- SGDT and SIDT: six bytes, the limit first; the last one is free when OS = 16 (47_protection_model.md R511,
93_implementation_defined.md U29). -/
def storeTable (t : TableReg) (ea : EA) : M Unit := do
  let s ← get
  let lim ← locateEa ea 0 2 true
  let base ← locateEa ea 2 4 true
  let hi ← draw 8
  memWrite lim t.limit.toNat
  memWrite base (if s.os32 then t.base else hi ++ t.base.extractLsb' 0 24).toNat

/-- The six bytes LGDT and LIDT load; with OS = 16 the base has 24 bits (47_protection_model.md R513). -/
def readTable (ea : EA) : M TableReg := do
  let s ← get
  let (lim, base32) ← readParts ea 2 4
  let base : Dword := BitVec.ofNat 32 base32
  pure { base := if s.os32 then base else base &&& 0x00FFFFFF, limit := BitVec.ofNat 16 lim }

/-- LGDT (47_protection_model.md R513). -/
def loadGdt (ea : EA) : M Unit := do
  requirePrivileged
  let t ← readTable ea
  modify fun s => { s with gdtr := t }

/-- LIDT (47_protection_model.md R514). -/
def loadIdt (ea : EA) : M Unit := do
  requirePrivileged
  let t ← readTable ea
  modify fun s => { s with idtr := t }

/-- SLDT and STR (47_protection_model.md R515, R516). -/
def storeSelector (sel : State → Word) (rm : Rm) : M Unit := do
  requireProtected
  let s ← get
  writeRm16 rm (sel s)

/-- LLDT (47_protection_model.md R517). -/
def loadLdt (rm : Rm) : M Unit := do
  requireProtected
  requirePrivileged
  let sel ← readRm .w16 rm
  if selNull sel then modify fun s => { s with ldtr := { s.ldtr with sel := sel, valid := false } }
  else do
    require (!selTi sel) (.gp (selCode sel))
    let (_, d) ← findDesc sel .gp
    require (!descS d && descType d == 2) (.gp (selCode sel))
    require (descP d) (.np (selCode sel))
    modify fun s => { s with ldtr := { sel := sel, valid := true, base := descBase d, limit := descLimit d } }

/-- LTR: the descriptor is marked busy (47_protection_model.md R518). -/
def loadTask (rm : Rm) : M Unit := do
  requireProtected
  requirePrivileged
  let sel ← readRm .w16 rm
  require (!selNull sel) (.gp 0)
  require (!selTi sel) (.gp (selCode sel))
  let (a, d) ← findDesc sel .gp
  require (!descS d && (descType d == 1 || descType d == 9)) (.gp (selCode sel))
  require (descP d) (.np (selCode sel))
  let busy ← linLocate (a + 5) 1 true true
  changeTypeByte busy 0 2
  modify fun s =>
    { s with tr := { sel := sel, base := descBase d, limit := descLimit d, is386 := descType d == 9 } }

/-! Pointer validation. -/

/-- Whether the descriptor of a selector lies in its table (47_protection_model.md R519). -/
def State.inTable (s : State) (sel : Word) : Bool :=
  if selTi sel then s.ldtr.valid && decide ((selOffset sel).toNat + 7 ≤ s.ldtr.limit.toNat)
  else decide ((selOffset sel).toNat + 7 ≤ s.gdtr.limit.toNat)

/-- The privilege part of Visible (47_protection_model.md R519). -/
def descReachable (d : Descriptor) (cpl rpl : BitVec 2) : Bool :=
  (descS d && descConforming d) || (decide (cpl ≤ descDpl d) && decide (rpl ≤ descDpl d))

/-- Visible(sel): the descriptor, if the selector test may see it; no exception but a page fault
(47_protection_model.md R519). -/
def visible (sel : Word) : M (Option Descriptor) := do
  let s ← get
  if selNull sel || !s.inTable sel then pure none
  else do
    let d ← readDesc ((if selTi sel then s.ldtr.base else s.gdtr.base) + selOffset sel)
    pure (if descReachable d s.cpl (selRpl sel) then some d else none)

/-- Write ZF alone. -/
def setZf (z : Bool) : M Unit := updateFlags fun f => { f with zf := z }

/-- ARPL (47_protection_model.md R520). Without an adjustment the operand has been located for writing all the same, so
its page gets the D bit and a data breakpoint on writes matches (60_exceptions.md R681), but nothing is stored: the
model's choice (log 41). -/
def adjustRpl (rm : Rm) (r : Reg) : M Unit := do
  requireProtected
  let p ← locate .w16 rm true
  let d : Word ← getPlace .w16 p
  let v : Word ← getReg .w16 r
  if selRpl d < selRpl v then do
    putPlace .w16 p (selCode d ||| (selRpl v).setWidth 16)
    setZf true
  else setZf false

/-- Write a register and set ZF if a descriptor is visible and of a type that `ok` accepts, else clear ZF: LAR and LSL
(47_protection_model.md R521, R522). -/
def loadFromDesc (ok : Descriptor → Bool) (value : Descriptor → Dword) (r : Reg) (rm : Rm) : M Unit := do
  requireProtected
  let s ← get
  let sel ← readRm .w16 rm
  match ← visible sel with
  | none => setZf false
  | some d =>
    if ok d then do
      setReg s.vWidth r ((value d).setWidth s.vWidth.bits)
      setZf true
    else setZf false

/-- The types LAR accepts (47_protection_model.md R521). -/
def larType (d : Descriptor) : Bool :=
  descS d || descType d == 1 || descType d == 2 || descType d == 3 || descType d == 4 || descType d == 5 ||
    descType d == 9 || descType d == 11 || descType d == 12

/-- The access rights as LAR gives them (47_protection_model.md R521). -/
def accessRights (d : Descriptor) : Dword := d.extractLsb' 32 32 &&& 0x00F0FF00

/-- The types LSL accepts (47_protection_model.md R522). -/
def lslType (d : Descriptor) : Bool :=
  descS d || descType d == 1 || descType d == 2 || descType d == 3 || descType d == 9 || descType d == 11

/-- VERR and VERW: ZF says whether the segment is visible and passes a test (47_protection_model.md R523, R524). -/
def verify (ok : Descriptor → Bool) (rm : Rm) : M Unit := do
  requireProtected
  let sel ← readRm .w16 rm
  let d ← visible sel
  setZf (d.any ok)

/-- Readable: a data segment or a readable code segment (47_protection_model.md R523). -/
def verrOk (d : Descriptor) : Bool := descS d && (!descE d || descW d)

/-- Writable: a writable data segment (47_protection_model.md R524). -/
def verwOk (d : Descriptor) : Bool := descIsStack d

/-! The machine status word and the control registers. -/

/-- Bits 4..0 of CR0 (10_state.md R55). -/
def Cr0.low (c : Cr0) : BitVec 5 :=
  BitVec.ofBool c.r ++ BitVec.ofBool c.ts ++ BitVec.ofBool c.em ++ BitVec.ofBool c.mp ++ BitVec.ofBool c.pe

/-- LMSW: PE can only be set (47_protection_model.md R526). -/
def loadMsw (rm : Rm) : M Unit := do
  requirePrivileged
  let v : Word ← readRm .w16 rm
  modify fun s =>
    { s with cr0 :=
      { s.cr0 with pe := s.cr0.pe || v.getLsbD 0, mp := v.getLsbD 1, em := v.getLsbD 2, ts := v.getLsbD 3 } }

/-- SMSW: bits 15..5 are free (47_protection_model.md R527). -/
def storeMsw (rm : Rm) : M Unit := do
  let s ← get
  let hi ← draw 11
  writeRm16 rm (hi ++ s.cr0.low)

/-- CLTS (47_protection_model.md R528). -/
def clearTs : M Unit := do
  requirePrivileged
  modify fun s => { s with cr0 := { s.cr0 with ts := false } }

/-- A register with its reserved bits free: those outside `mask` (10_state.md R79). -/
def withFree (mask v : Dword) : M Dword := do
  let any ← draw 32
  pure ((v &&& mask) ||| (any &&& ~~~mask))

/-- CR0 as a word, its reserved bits 0 (10_state.md R55). -/
def Cr0.word (c : Cr0) : Dword := BitVec.ofBool c.pg ++ (0 : BitVec 26) ++ c.low

/-- A control register as MOV reads it; CR1 and CR4 to CR7 are #UD (47_protection_model.md R530). -/
def readControl (n : BitVec 3) : M Dword := do
  let s ← get
  match n.toNat with
  | 0 => withFree 0x8000001F s.cr0.word
  | 2 => pure s.cr2
  | 3 => withFree 0xFFFFF000 (s.cr3 ++ (0 : BitVec 12))
  | _ => raise .ud

/-- The stored bits of CR0 in a word (47_protection_model.md R531). -/
def Cr0.ofWord (v : Dword) : Cr0 :=
  { pg := v.getLsbD 31, r := v.getLsbD 4, ts := v.getLsbD 3, em := v.getLsbD 2, mp := v.getLsbD 1, pe := v.getLsbD 0 }

/-- A control register written by MOV: PG without PE is not described (47_protection_model.md R531) and refused
(93_implementation_defined.md U12, log 12). -/
def writeControl (n : BitVec 3) (v : Dword) : M Unit :=
  match n.toNat with
  | 0 => do
    if v.getLsbD 31 && !v.getLsbD 0 then refuse .pagingWithoutProtection
    else modify fun s => { s with cr0 := Cr0.ofWord v }
  | 2 => modify fun s => { s with cr2 := v }
  | 3 => do
    modify fun s => { s with cr3 := v.extractLsb' 12 20 }
    tlbFlush
  | _ => raise .ud

/-- MOV r32, CRn; the status flags are free (47_protection_model.md R530). -/
def moveFromControl (r : Reg) (n : BitVec 3) : M Unit := do
  requirePrivileged
  let v ← readControl n
  setReg .w32 r v
  freeStatus

/-- MOV CRn, r32; the status flags are free (47_protection_model.md R531). -/
def moveToControl (n : BitVec 3) (r : Reg) : M Unit := do
  requirePrivileged
  let v ← getReg .w32 r
  writeControl n v
  freeStatus

/-! Debug registers. -/

/-- The tests before a debug register access: privilege, then GD (47_protection_model.md R532, 60_exceptions.md
R685). -/
def requireDebug : M Unit := do
  requirePrivileged
  let s ← get
  require (!s.dr7.getLsbD 13) .db

/-- DR6 as a word, its reserved bits 0 (10_state.md R72). -/
def DebugStatus.word (d : DebugStatus) : Dword :=
  (0 : BitVec 16) ++ BitVec.ofBool d.bt ++ BitVec.ofBool d.bs ++ BitVec.ofBool d.bd ++ (0 : BitVec 9) ++ d.b

/-- The defined bits of a word for DR6 (10_state.md R72). -/
def DebugStatus.ofWord (v : Dword) : DebugStatus :=
  { b := v.extractLsb' 0 4, bd := v.getLsbD 13, bs := v.getLsbD 14, bt := v.getLsbD 15 }

/-- The defined bits of DR7 (10_state.md R73). -/
def dr7Mask : Dword := 0xFFFF23FF

/-- A debug register as MOV reads it; DR4 and DR5 have no meaning (47_protection_model.md R532, log 15). -/
def readDebug (n : BitVec 3) : M Dword := do
  let s ← get
  match n.toNat with
  | 0 => pure s.dr.dr0
  | 1 => pure s.dr.dr1
  | 2 => pure s.dr.dr2
  | 3 => pure s.dr.dr3
  | 6 => withFree 0x0000E00F s.dr6.word
  | 7 => withFree dr7Mask s.dr7
  | _ => refuse .reservedDebugRegister

/-- A debug register written by MOV (47_protection_model.md R533, log 15). -/
def writeDebug (n : BitVec 3) (v : Dword) : M Unit :=
  match n.toNat with
  | 0 => modify fun s => { s with dr := { s.dr with dr0 := v } }
  | 1 => modify fun s => { s with dr := { s.dr with dr1 := v } }
  | 2 => modify fun s => { s with dr := { s.dr with dr2 := v } }
  | 3 => modify fun s => { s with dr := { s.dr with dr3 := v } }
  | 6 => modify fun s => { s with dr6 := DebugStatus.ofWord v }
  | 7 => modify fun s => { s with dr7 := v &&& dr7Mask }
  | _ => refuse .reservedDebugRegister

/-- MOV r32, DRn; the status flags are free (47_protection_model.md R532). -/
def moveFromDebug (r : Reg) (n : BitVec 3) : M Unit := do
  requireDebug
  let v ← readDebug n
  setReg .w32 r v
  freeStatus

/-- MOV DRn, r32; the status flags are free (47_protection_model.md R533). -/
def moveToDebug (n : BitVec 3) (r : Reg) : M Unit := do
  requireDebug
  let v ← getReg .w32 r
  writeDebug n v
  freeStatus

/-! Test registers (20_memory.md R165). -/

/-- The defined bits of TR6 (10_state.md R75). -/
def tr6Mask : Dword := 0xFFFFFFE1

/-- The defined bits of TR7 (10_state.md R76). -/
def tr7Mask : Dword := 0xFFFFF01C

/-- An attribute bit of a TLB write: fixed by a complementary pair, else free (20_memory.md R165). -/
def pairBit (x notX : Bool) : M Bool := if x != notX then pure x else drawBool

/-- Whether an attribute bit of an entry passes the pair of a TLB lookup (20_memory.md R165). -/
def pairMatches (x notX b : Bool) : Bool := (x && b) || (notX && !b)

/-- The TLB write command: the way is REP if PL = 1, else the processor's choice (20_memory.md R165, U14). -/
def tlbWrite (c : Dword) : M Unit := do
  let s ← get
  let d ← pairBit (c.getLsbD 10) (c.getLsbD 9)
  let u ← pairBit (c.getLsbD 8) (c.getLsbD 7)
  let w ← pairBit (c.getLsbD 6) (c.getLsbD 5)
  let any ← draw 2
  let way : BitVec 2 := if s.tr7.getLsbD 4 then s.tr7.extractLsb' 2 2 else any
  tlbPut way.toNat
    (if c.getLsbD 11 then some { tag := pageOf c, phys := s.tr7.extractLsb' 12 20, d := d, u := u, w := w } else none)
    (pageOf c)

/-- Whether a way holds a valid entry that a lookup command matches (20_memory.md R165, log 36). -/
def lookupMatches (c : Dword) (e : Option TlbEntry) : Bool :=
  e.any fun t =>
    t.tag == pageOf c && pairMatches (c.getLsbD 10) (c.getLsbD 9) t.d && pairMatches (c.getLsbD 8) (c.getLsbD 7) t.u &&
      pairMatches (c.getLsbD 6) (c.getLsbD 5) t.w

/-- TR6 as a lookup hit sets it: V = 1 and the attributes in complementary pairs (20_memory.md R165). -/
def hitTr6 (t : TlbEntry) : Dword :=
  t.tag ++ (1 : BitVec 1) ++ BitVec.ofBool t.d ++ BitVec.ofBool (!t.d) ++ BitVec.ofBool t.u ++ BitVec.ofBool (!t.u) ++
    BitVec.ofBool t.w ++ BitVec.ofBool (!t.w) ++ (1 : BitVec 5)

/-- TR7 as a lookup hit sets it: PL = 1 and REP the way (20_memory.md R165). -/
def hitTr7 (t : TlbEntry) (way : Nat) : Dword :=
  t.phys ++ (0 : BitVec 7) ++ (1 : BitVec 1) ++ BitVec.ofNat 2 way ++ (0 : BitVec 2)

/-- The ways 0 to 3 that a lookup command matches. -/
def lookupHits (tlb : List (Option TlbEntry)) (c : Dword) : List (Nat × TlbEntry) :=
  (List.range 4).filterMap fun k =>
    ((tlbSet tlb (pageOf c)).getD k none).bind fun t => if lookupMatches c (some t) then some (k, t) else none

/-- The TLB lookup command: one hit, a miss with everything but PL free, or no meaning (20_memory.md R165, U18). -/
def tlbLookup (c : Dword) : M Unit := do
  let s ← get
  match lookupHits s.tlb c with
  | [] => do
    let a ← draw 32
    let b ← draw 32
    modify fun u => { u with tr6 := a &&& tr6Mask, tr7 := b &&& tr7Mask &&& ~~~(0x10 : Dword) }
  | [(k, t)] => modify fun u => { u with tr6 := hitTr6 t, tr7 := hitTr7 t k }
  | _ => refuse .tlbLookupAmbiguous

/-- A test register as MOV reads it (47_protection_model.md R534). -/
def readTest (n : BitVec 3) : M Dword := do
  let s ← get
  match n.toNat with
  | 6 => withFree tr6Mask s.tr6
  | 7 => withFree tr7Mask s.tr7
  | _ => raise .ud

/-- A test register written by MOV: TR6 runs the command of its C bit, with paging off (47_protection_model.md R535,
log 17). -/
def writeTest (n : BitVec 3) (v : Dword) : M Unit :=
  match n.toNat with
  | 6 => do
    let s ← get
    if s.cr0.pg then refuse .tlbTestWhilePaging
    else do
      modify fun u => { u with tr6 := v &&& tr6Mask }
      if v.getLsbD 0 then tlbLookup v else tlbWrite v
  | 7 => modify fun s => { s with tr7 := v &&& tr7Mask }
  | _ => raise .ud

/-- MOV r32, TRn; the status flags are free (47_protection_model.md R534). -/
def moveFromTest (r : Reg) (n : BitVec 3) : M Unit := do
  requirePrivileged
  let v ← readTest n
  setReg .w32 r v
  freeStatus

/-- MOV TRn, r32; the status flags are free (47_protection_model.md R535). -/
def moveToTest (n : BitVec 3) (r : Reg) : M Unit := do
  requirePrivileged
  let v ← getReg .w32 r
  writeTest n v
  freeStatus

/-! The meanings. -/

/-- ARPL r/m16, r16 (47_protection_model.md R520). -/
def execArpl (rm : Rm) (r : Reg) (s : State) : Result :=
  runSimple (adjustRpl rm r) s

/-- SLDT r/m16 (47_protection_model.md R515). -/
def execSldt (rm : Rm) (s : State) : Result :=
  runSimple (storeSelector (fun t => t.ldtr.sel) rm) s

/-- STR r/m16 (47_protection_model.md R516). -/
def execStr (rm : Rm) (s : State) : Result :=
  runSimple (storeSelector (fun t => t.tr.sel) rm) s

/-- LLDT r/m16 (47_protection_model.md R517). -/
def execLldt (rm : Rm) (s : State) : Result :=
  runSimple (loadLdt rm) s

/-- LTR r/m16 (47_protection_model.md R518). -/
def execLtr (rm : Rm) (s : State) : Result :=
  runSimple (loadTask rm) s

/-- VERR r/m16 (47_protection_model.md R523). -/
def execVerr (rm : Rm) (s : State) : Result :=
  runSimple (verify verrOk rm) s

/-- VERW r/m16 (47_protection_model.md R524). -/
def execVerw (rm : Rm) (s : State) : Result :=
  runSimple (verify verwOk rm) s

/-- SGDT m (47_protection_model.md R511). -/
def execSgdt (ea : EA) (s : State) : Result :=
  runSimple (storeTable s.gdtr ea) s

/-- SIDT m (47_protection_model.md R512). -/
def execSidt (ea : EA) (s : State) : Result :=
  runSimple (storeTable s.idtr ea) s

/-- LGDT m (47_protection_model.md R513). -/
def execLgdt (ea : EA) (s : State) : Result :=
  runSimple (loadGdt ea) s

/-- LIDT m (47_protection_model.md R514). -/
def execLidt (ea : EA) (s : State) : Result :=
  runSimple (loadIdt ea) s

/-- SMSW r/m16 (47_protection_model.md R527). -/
def execSmsw (rm : Rm) (s : State) : Result :=
  runSimple (storeMsw rm) s

/-- LMSW r/m16 (47_protection_model.md R526). -/
def execLmsw (rm : Rm) (s : State) : Result :=
  runSimple (loadMsw rm) s

/-- LAR rv, r/mv (47_protection_model.md R521). -/
def execLar (r : Reg) (rm : Rm) (s : State) : Result :=
  runSimple (loadFromDesc larType accessRights r rm) s

/-- LSL rv, r/mv (47_protection_model.md R522). -/
def execLsl (r : Reg) (rm : Rm) (s : State) : Result :=
  runSimple (loadFromDesc lslType descLimit r rm) s

/-- CLTS (47_protection_model.md R528). -/
def execClts (s : State) : Result :=
  runSimple clearTs s

/-- MOV r32, CRn (47_protection_model.md R530). -/
def execMovR32Cr (r : Reg) (n : BitVec 3) (s : State) : Result :=
  runSimple (moveFromControl r n) s

/-- MOV r32, DRn (47_protection_model.md R532). -/
def execMovR32Dr (r : Reg) (n : BitVec 3) (s : State) : Result :=
  runSimple (moveFromDebug r n) s

/-- MOV CRn, r32 (47_protection_model.md R531). -/
def execMovCrR32 (n : BitVec 3) (r : Reg) (s : State) : Result :=
  runSimple (moveToControl n r) s

/-- MOV DRn, r32 (47_protection_model.md R533). -/
def execMovDrR32 (n : BitVec 3) (r : Reg) (s : State) : Result :=
  runSimple (moveToDebug n r) s

/-- MOV r32, TRn (47_protection_model.md R534). -/
def execMovR32Tr (r : Reg) (n : BitVec 3) (s : State) : Result :=
  runSimple (moveFromTest r n) s

/-- MOV TRn, r32 (47_protection_model.md R535). -/
def execMovTrR32 (n : BitVec 3) (r : Reg) (s : State) : Result :=
  runSimple (moveToTest n r) s

end Sys2Proof.Machine
end

