-- ==== Sys2Proof/Machine/StringOps.lean ====
section
/-! DEFINITION. The string instructions, one iteration per step (42_string.md). -/

namespace Sys2Proof.Machine

/-! Shared operations. -/

/-- The end of an iteration: the count is down by one; go on past the instruction if it is zero or the compare ended
the loop, else stay at its first prefix (42_string.md R401). An iteration that stays leaves RF as it is: the model's
choice (log 46). -/
def endIteration (compares : Bool) (k : RepKind) : M Done := do
  addAsReg .ecx (-1)
  let s ← get
  if s.asReg .ecx = 0 ∨ (compares = true ∧ s.flags.zf = decide (k = .repne)) then do
    advance
    pure .plain
  else pure .keepRf

/-- RepStep(body), or the body once without a repeat prefix (42_string.md R401). -/
def repeatStep (compares : Bool) (body : M Unit) : M Done := do
  let s ← get
  match s.dec.rep with
  | none => do
    body
    advance
    pure .plain
  | some k =>
    if s.asReg .ecx = 0 then do
      advance
      pure .plain
    else do
      body
      endIteration compares k

/-- MOVS: the checks of both elements are made before the source is read (42_string.md R402,
92_eei_decisions.md D6). -/
def moveElement (w : Width) : M Unit := do
  let src ← locateSource w
  let dst ← locateDest w true
  let v ← readValue w src
  memWrite dst v.toNat
  stepPointer w .esi
  stepPointer w .edi

/-- CMPS: the element at (E)SI is the minuend; the checks of both are made before either is read (42_string.md R403,
92_eei_decisions.md D6). -/
def compareElements (w : Width) : M Unit := do
  let src ← locateSource w
  let dst ← locateDest w false
  let a ← readValue w src
  let b ← readValue w dst
  let _ ← opSub a b
  stepPointer w .esi
  stepPointer w .edi

/-- SCAS (42_string.md R404). -/
def scanElement (w : Width) : M Unit := do
  let dst ← locateDest w false
  let b ← readValue w dst
  let a ← getReg w .eax
  let _ ← opSub a b
  stepPointer w .edi

/-- LODS (42_string.md R405). -/
def loadElement (w : Width) : M Unit := do
  let src ← locateSource w
  let v ← readValue w src
  setReg w .eax v
  stepPointer w .esi

/-- STOS (42_string.md R406). -/
def storeElement (w : Width) : M Unit := do
  let v ← getReg w .eax
  let dst ← locateDest w true
  memWrite dst v.toNat
  stepPointer w .edi

/-- INS: the destination is checked before the port is read (42_string.md R407). -/
def inElement (w : Width) : M Unit := do
  let s ← get
  ioPermitted s.portDx w.bytes
  let dst ← locateDest w true
  let v ← ioRead s.portDx w
  memWrite dst v.toNat
  stepPointer w .edi

/-- OUTS (42_string.md R408). -/
def outElement (w : Width) : M Unit := do
  let s ← get
  ioPermitted s.portDx w.bytes
  let src ← locateSource w
  let v ← readValue w src
  ioWrite s.portDx w v
  stepPointer w .esi

/-! The meanings. -/

/-- INSB (42_string.md R407). -/
def execInsb (s : State) : Result :=
  runInstr (repeatStep false (inElement .w8)) s

/-- INSW/INSD (42_string.md R407). -/
def execInsv (s : State) : Result :=
  runInstr (repeatStep false (inElement s.vWidth)) s

/-- OUTSB (42_string.md R408). -/
def execOutsb (s : State) : Result :=
  runInstr (repeatStep false (outElement .w8)) s

/-- OUTSW/OUTSD (42_string.md R408). -/
def execOutsv (s : State) : Result :=
  runInstr (repeatStep false (outElement s.vWidth)) s

/-- MOVSB (42_string.md R402). -/
def execMovsb (s : State) : Result :=
  runInstr (repeatStep false (moveElement .w8)) s

/-- MOVSW/MOVSD (42_string.md R402). -/
def execMovsv (s : State) : Result :=
  runInstr (repeatStep false (moveElement s.vWidth)) s

/-- CMPSB (42_string.md R403). -/
def execCmpsb (s : State) : Result :=
  runInstr (repeatStep true (compareElements .w8)) s

/-- CMPSW/CMPSD (42_string.md R403). -/
def execCmpsv (s : State) : Result :=
  runInstr (repeatStep true (compareElements s.vWidth)) s

/-- STOSB (42_string.md R406). -/
def execStosb (s : State) : Result :=
  runInstr (repeatStep false (storeElement .w8)) s

/-- STOSW/STOSD (42_string.md R406). -/
def execStosv (s : State) : Result :=
  runInstr (repeatStep false (storeElement s.vWidth)) s

/-- LODSB (42_string.md R405). -/
def execLodsb (s : State) : Result :=
  runInstr (repeatStep false (loadElement .w8)) s

/-- LODSW/LODSD (42_string.md R405). -/
def execLodsv (s : State) : Result :=
  runInstr (repeatStep false (loadElement s.vWidth)) s

/-- SCASB (42_string.md R404). -/
def execScasb (s : State) : Result :=
  runInstr (repeatStep true (scanElement .w8)) s

/-- SCASW/SCASD (42_string.md R404). -/
def execScasv (s : State) : Result :=
  runInstr (repeatStep true (scanElement s.vWidth)) s

end Sys2Proof.Machine
end

