-- ==== Sys2Proof/Machine/Dispatch.lean ====
section
/-! DEFINITION. One arm per instruction of the opcode table: a direct call of its meaning. -/

namespace Sys2Proof.Machine

/-- What an instruction does (spec/opcode_table.json gives the constructors in its order). -/
def exec (i : Instr) (s : State) : Host.Outcome State Fault Refusal :=
  match i with
  | .addRm8R8 rm r => Sys2Proof.Machine.execAddRm8R8 rm r s
  | .addRmvRv rm r => Sys2Proof.Machine.execAddRmvRv rm r s
  | .addR8Rm8 r rm => Sys2Proof.Machine.execAddR8Rm8 r rm s
  | .addRvRmv r rm => Sys2Proof.Machine.execAddRvRmv r rm s
  | .addAlImm8 imm => Sys2Proof.Machine.execAddAlImm8 imm s
  | .addEaxImmv imm => Sys2Proof.Machine.execAddEaxImmv imm s
  | .addRm8Imm8 rm imm => Sys2Proof.Machine.execAddRm8Imm8 rm imm s
  | .addRmvImmv rm imm => Sys2Proof.Machine.execAddRmvImmv rm imm s
  | .addRmvSimm8 rm imm => Sys2Proof.Machine.execAddRmvSimm8 rm imm s
  | .orRm8R8 rm r => Sys2Proof.Machine.execOrRm8R8 rm r s
  | .orRmvRv rm r => Sys2Proof.Machine.execOrRmvRv rm r s
  | .orR8Rm8 r rm => Sys2Proof.Machine.execOrR8Rm8 r rm s
  | .orRvRmv r rm => Sys2Proof.Machine.execOrRvRmv r rm s
  | .orAlImm8 imm => Sys2Proof.Machine.execOrAlImm8 imm s
  | .orEaxImmv imm => Sys2Proof.Machine.execOrEaxImmv imm s
  | .orRm8Imm8 rm imm => Sys2Proof.Machine.execOrRm8Imm8 rm imm s
  | .orRmvImmv rm imm => Sys2Proof.Machine.execOrRmvImmv rm imm s
  | .orRmvSimm8 rm imm => Sys2Proof.Machine.execOrRmvSimm8 rm imm s
  | .adcRm8R8 rm r => Sys2Proof.Machine.execAdcRm8R8 rm r s
  | .adcRmvRv rm r => Sys2Proof.Machine.execAdcRmvRv rm r s
  | .adcR8Rm8 r rm => Sys2Proof.Machine.execAdcR8Rm8 r rm s
  | .adcRvRmv r rm => Sys2Proof.Machine.execAdcRvRmv r rm s
  | .adcAlImm8 imm => Sys2Proof.Machine.execAdcAlImm8 imm s
  | .adcEaxImmv imm => Sys2Proof.Machine.execAdcEaxImmv imm s
  | .adcRm8Imm8 rm imm => Sys2Proof.Machine.execAdcRm8Imm8 rm imm s
  | .adcRmvImmv rm imm => Sys2Proof.Machine.execAdcRmvImmv rm imm s
  | .adcRmvSimm8 rm imm => Sys2Proof.Machine.execAdcRmvSimm8 rm imm s
  | .sbbRm8R8 rm r => Sys2Proof.Machine.execSbbRm8R8 rm r s
  | .sbbRmvRv rm r => Sys2Proof.Machine.execSbbRmvRv rm r s
  | .sbbR8Rm8 r rm => Sys2Proof.Machine.execSbbR8Rm8 r rm s
  | .sbbRvRmv r rm => Sys2Proof.Machine.execSbbRvRmv r rm s
  | .sbbAlImm8 imm => Sys2Proof.Machine.execSbbAlImm8 imm s
  | .sbbEaxImmv imm => Sys2Proof.Machine.execSbbEaxImmv imm s
  | .sbbRm8Imm8 rm imm => Sys2Proof.Machine.execSbbRm8Imm8 rm imm s
  | .sbbRmvImmv rm imm => Sys2Proof.Machine.execSbbRmvImmv rm imm s
  | .sbbRmvSimm8 rm imm => Sys2Proof.Machine.execSbbRmvSimm8 rm imm s
  | .andRm8R8 rm r => Sys2Proof.Machine.execAndRm8R8 rm r s
  | .andRmvRv rm r => Sys2Proof.Machine.execAndRmvRv rm r s
  | .andR8Rm8 r rm => Sys2Proof.Machine.execAndR8Rm8 r rm s
  | .andRvRmv r rm => Sys2Proof.Machine.execAndRvRmv r rm s
  | .andAlImm8 imm => Sys2Proof.Machine.execAndAlImm8 imm s
  | .andEaxImmv imm => Sys2Proof.Machine.execAndEaxImmv imm s
  | .andRm8Imm8 rm imm => Sys2Proof.Machine.execAndRm8Imm8 rm imm s
  | .andRmvImmv rm imm => Sys2Proof.Machine.execAndRmvImmv rm imm s
  | .andRmvSimm8 rm imm => Sys2Proof.Machine.execAndRmvSimm8 rm imm s
  | .subRm8R8 rm r => Sys2Proof.Machine.execSubRm8R8 rm r s
  | .subRmvRv rm r => Sys2Proof.Machine.execSubRmvRv rm r s
  | .subR8Rm8 r rm => Sys2Proof.Machine.execSubR8Rm8 r rm s
  | .subRvRmv r rm => Sys2Proof.Machine.execSubRvRmv r rm s
  | .subAlImm8 imm => Sys2Proof.Machine.execSubAlImm8 imm s
  | .subEaxImmv imm => Sys2Proof.Machine.execSubEaxImmv imm s
  | .subRm8Imm8 rm imm => Sys2Proof.Machine.execSubRm8Imm8 rm imm s
  | .subRmvImmv rm imm => Sys2Proof.Machine.execSubRmvImmv rm imm s
  | .subRmvSimm8 rm imm => Sys2Proof.Machine.execSubRmvSimm8 rm imm s
  | .xorRm8R8 rm r => Sys2Proof.Machine.execXorRm8R8 rm r s
  | .xorRmvRv rm r => Sys2Proof.Machine.execXorRmvRv rm r s
  | .xorR8Rm8 r rm => Sys2Proof.Machine.execXorR8Rm8 r rm s
  | .xorRvRmv r rm => Sys2Proof.Machine.execXorRvRmv r rm s
  | .xorAlImm8 imm => Sys2Proof.Machine.execXorAlImm8 imm s
  | .xorEaxImmv imm => Sys2Proof.Machine.execXorEaxImmv imm s
  | .xorRm8Imm8 rm imm => Sys2Proof.Machine.execXorRm8Imm8 rm imm s
  | .xorRmvImmv rm imm => Sys2Proof.Machine.execXorRmvImmv rm imm s
  | .xorRmvSimm8 rm imm => Sys2Proof.Machine.execXorRmvSimm8 rm imm s
  | .cmpRm8R8 rm r => Sys2Proof.Machine.execCmpRm8R8 rm r s
  | .cmpRmvRv rm r => Sys2Proof.Machine.execCmpRmvRv rm r s
  | .cmpR8Rm8 r rm => Sys2Proof.Machine.execCmpR8Rm8 r rm s
  | .cmpRvRmv r rm => Sys2Proof.Machine.execCmpRvRmv r rm s
  | .cmpAlImm8 imm => Sys2Proof.Machine.execCmpAlImm8 imm s
  | .cmpEaxImmv imm => Sys2Proof.Machine.execCmpEaxImmv imm s
  | .cmpRm8Imm8 rm imm => Sys2Proof.Machine.execCmpRm8Imm8 rm imm s
  | .cmpRmvImmv rm imm => Sys2Proof.Machine.execCmpRmvImmv rm imm s
  | .cmpRmvSimm8 rm imm => Sys2Proof.Machine.execCmpRmvSimm8 rm imm s
  | .pushEs => Sys2Proof.Machine.execPushEs s
  | .pushCs => Sys2Proof.Machine.execPushCs s
  | .pushSs => Sys2Proof.Machine.execPushSs s
  | .pushDs => Sys2Proof.Machine.execPushDs s
  | .pushFs => Sys2Proof.Machine.execPushFs s
  | .pushGs => Sys2Proof.Machine.execPushGs s
  | .popEs => Sys2Proof.Machine.execPopEs s
  | .popSs => Sys2Proof.Machine.execPopSs s
  | .popDs => Sys2Proof.Machine.execPopDs s
  | .popFs => Sys2Proof.Machine.execPopFs s
  | .popGs => Sys2Proof.Machine.execPopGs s
  | .daa => Sys2Proof.Machine.execDaa s
  | .das => Sys2Proof.Machine.execDas s
  | .aaa => Sys2Proof.Machine.execAaa s
  | .aas => Sys2Proof.Machine.execAas s
  | .incRv r => Sys2Proof.Machine.execIncRv r s
  | .decRv r => Sys2Proof.Machine.execDecRv r s
  | .pushRv r => Sys2Proof.Machine.execPushRv r s
  | .popRv r => Sys2Proof.Machine.execPopRv r s
  | .pusha => Sys2Proof.Machine.execPusha s
  | .popa => Sys2Proof.Machine.execPopa s
  | .bound r ea => Sys2Proof.Machine.execBound r ea s
  | .arpl rm r => Sys2Proof.Machine.execArpl rm r s
  | .pushImmv imm => Sys2Proof.Machine.execPushImmv imm s
  | .pushSimm8 imm => Sys2Proof.Machine.execPushSimm8 imm s
  | .imulRvRmvImmv r rm imm => Sys2Proof.Machine.execImulRvRmvImmv r rm imm s
  | .imulRvRmvSimm8 r rm imm => Sys2Proof.Machine.execImulRvRmvSimm8 r rm imm s
  | .insb => Sys2Proof.Machine.execInsb s
  | .insv => Sys2Proof.Machine.execInsv s
  | .outsb => Sys2Proof.Machine.execOutsb s
  | .outsv => Sys2Proof.Machine.execOutsv s
  | .joRel8 rel => Sys2Proof.Machine.execJoRel8 rel s
  | .jnoRel8 rel => Sys2Proof.Machine.execJnoRel8 rel s
  | .jbRel8 rel => Sys2Proof.Machine.execJbRel8 rel s
  | .jaeRel8 rel => Sys2Proof.Machine.execJaeRel8 rel s
  | .jeRel8 rel => Sys2Proof.Machine.execJeRel8 rel s
  | .jneRel8 rel => Sys2Proof.Machine.execJneRel8 rel s
  | .jbeRel8 rel => Sys2Proof.Machine.execJbeRel8 rel s
  | .jaRel8 rel => Sys2Proof.Machine.execJaRel8 rel s
  | .jsRel8 rel => Sys2Proof.Machine.execJsRel8 rel s
  | .jnsRel8 rel => Sys2Proof.Machine.execJnsRel8 rel s
  | .jpRel8 rel => Sys2Proof.Machine.execJpRel8 rel s
  | .jnpRel8 rel => Sys2Proof.Machine.execJnpRel8 rel s
  | .jlRel8 rel => Sys2Proof.Machine.execJlRel8 rel s
  | .jgeRel8 rel => Sys2Proof.Machine.execJgeRel8 rel s
  | .jleRel8 rel => Sys2Proof.Machine.execJleRel8 rel s
  | .jgRel8 rel => Sys2Proof.Machine.execJgRel8 rel s
  | .testRm8R8 rm r => Sys2Proof.Machine.execTestRm8R8 rm r s
  | .testRmvRv rm r => Sys2Proof.Machine.execTestRmvRv rm r s
  | .xchgRm8R8 rm r => Sys2Proof.Machine.execXchgRm8R8 rm r s
  | .xchgRmvRv rm r => Sys2Proof.Machine.execXchgRmvRv rm r s
  | .movRm8R8 rm r => Sys2Proof.Machine.execMovRm8R8 rm r s
  | .movRmvRv rm r => Sys2Proof.Machine.execMovRmvRv rm r s
  | .movR8Rm8 r rm => Sys2Proof.Machine.execMovR8Rm8 r rm s
  | .movRvRmv r rm => Sys2Proof.Machine.execMovRvRmv r rm s
  | .movRm16Sreg rm sr => Sys2Proof.Machine.execMovRm16Sreg rm sr s
  | .lea r ea => Sys2Proof.Machine.execLea r ea s
  | .movSregRm16 sr rm => Sys2Proof.Machine.execMovSregRm16 sr rm s
  | .popRmv rm => Sys2Proof.Machine.execPopRmv rm s
  | .nop => Sys2Proof.Machine.execNop s
  | .xchgEaxRv r => Sys2Proof.Machine.execXchgEaxRv r s
  | .cbw => Sys2Proof.Machine.execCbw s
  | .cwd => Sys2Proof.Machine.execCwd s
  | .callPtr off sel => Sys2Proof.Machine.execCallPtr off sel s
  | .wait => Sys2Proof.Machine.execWait s
  | .pushf => Sys2Proof.Machine.execPushf s
  | .popf => Sys2Proof.Machine.execPopf s
  | .sahf => Sys2Proof.Machine.execSahf s
  | .lahf => Sys2Proof.Machine.execLahf s
  | .movAlMoffs8 off => Sys2Proof.Machine.execMovAlMoffs8 off s
  | .movEaxMoffsv off => Sys2Proof.Machine.execMovEaxMoffsv off s
  | .movMoffs8Al off => Sys2Proof.Machine.execMovMoffs8Al off s
  | .movMoffsvEax off => Sys2Proof.Machine.execMovMoffsvEax off s
  | .movsb => Sys2Proof.Machine.execMovsb s
  | .movsv => Sys2Proof.Machine.execMovsv s
  | .cmpsb => Sys2Proof.Machine.execCmpsb s
  | .cmpsv => Sys2Proof.Machine.execCmpsv s
  | .stosb => Sys2Proof.Machine.execStosb s
  | .stosv => Sys2Proof.Machine.execStosv s
  | .lodsb => Sys2Proof.Machine.execLodsb s
  | .lodsv => Sys2Proof.Machine.execLodsv s
  | .scasb => Sys2Proof.Machine.execScasb s
  | .scasv => Sys2Proof.Machine.execScasv s
  | .testAlImm8 imm => Sys2Proof.Machine.execTestAlImm8 imm s
  | .testEaxImmv imm => Sys2Proof.Machine.execTestEaxImmv imm s
  | .movR8Imm8 r imm => Sys2Proof.Machine.execMovR8Imm8 r imm s
  | .movRvImmv r imm => Sys2Proof.Machine.execMovRvImmv r imm s
  | .rolRm8Imm8 rm imm => Sys2Proof.Machine.execRolRm8Imm8 rm imm s
  | .rolRmvImm8 rm imm => Sys2Proof.Machine.execRolRmvImm8 rm imm s
  | .rolRm8One rm => Sys2Proof.Machine.execRolRm8One rm s
  | .rolRmvOne rm => Sys2Proof.Machine.execRolRmvOne rm s
  | .rolRm8Cl rm => Sys2Proof.Machine.execRolRm8Cl rm s
  | .rolRmvCl rm => Sys2Proof.Machine.execRolRmvCl rm s
  | .rorRm8Imm8 rm imm => Sys2Proof.Machine.execRorRm8Imm8 rm imm s
  | .rorRmvImm8 rm imm => Sys2Proof.Machine.execRorRmvImm8 rm imm s
  | .rorRm8One rm => Sys2Proof.Machine.execRorRm8One rm s
  | .rorRmvOne rm => Sys2Proof.Machine.execRorRmvOne rm s
  | .rorRm8Cl rm => Sys2Proof.Machine.execRorRm8Cl rm s
  | .rorRmvCl rm => Sys2Proof.Machine.execRorRmvCl rm s
  | .rclRm8Imm8 rm imm => Sys2Proof.Machine.execRclRm8Imm8 rm imm s
  | .rclRmvImm8 rm imm => Sys2Proof.Machine.execRclRmvImm8 rm imm s
  | .rclRm8One rm => Sys2Proof.Machine.execRclRm8One rm s
  | .rclRmvOne rm => Sys2Proof.Machine.execRclRmvOne rm s
  | .rclRm8Cl rm => Sys2Proof.Machine.execRclRm8Cl rm s
  | .rclRmvCl rm => Sys2Proof.Machine.execRclRmvCl rm s
  | .rcrRm8Imm8 rm imm => Sys2Proof.Machine.execRcrRm8Imm8 rm imm s
  | .rcrRmvImm8 rm imm => Sys2Proof.Machine.execRcrRmvImm8 rm imm s
  | .rcrRm8One rm => Sys2Proof.Machine.execRcrRm8One rm s
  | .rcrRmvOne rm => Sys2Proof.Machine.execRcrRmvOne rm s
  | .rcrRm8Cl rm => Sys2Proof.Machine.execRcrRm8Cl rm s
  | .rcrRmvCl rm => Sys2Proof.Machine.execRcrRmvCl rm s
  | .shlRm8Imm8 rm imm => Sys2Proof.Machine.execShlRm8Imm8 rm imm s
  | .shlRmvImm8 rm imm => Sys2Proof.Machine.execShlRmvImm8 rm imm s
  | .shlRm8One rm => Sys2Proof.Machine.execShlRm8One rm s
  | .shlRmvOne rm => Sys2Proof.Machine.execShlRmvOne rm s
  | .shlRm8Cl rm => Sys2Proof.Machine.execShlRm8Cl rm s
  | .shlRmvCl rm => Sys2Proof.Machine.execShlRmvCl rm s
  | .shrRm8Imm8 rm imm => Sys2Proof.Machine.execShrRm8Imm8 rm imm s
  | .shrRmvImm8 rm imm => Sys2Proof.Machine.execShrRmvImm8 rm imm s
  | .shrRm8One rm => Sys2Proof.Machine.execShrRm8One rm s
  | .shrRmvOne rm => Sys2Proof.Machine.execShrRmvOne rm s
  | .shrRm8Cl rm => Sys2Proof.Machine.execShrRm8Cl rm s
  | .shrRmvCl rm => Sys2Proof.Machine.execShrRmvCl rm s
  | .sarRm8Imm8 rm imm => Sys2Proof.Machine.execSarRm8Imm8 rm imm s
  | .sarRmvImm8 rm imm => Sys2Proof.Machine.execSarRmvImm8 rm imm s
  | .sarRm8One rm => Sys2Proof.Machine.execSarRm8One rm s
  | .sarRmvOne rm => Sys2Proof.Machine.execSarRmvOne rm s
  | .sarRm8Cl rm => Sys2Proof.Machine.execSarRm8Cl rm s
  | .sarRmvCl rm => Sys2Proof.Machine.execSarRmvCl rm s
  | .retNearImm16 imm => Sys2Proof.Machine.execRetNearImm16 imm s
  | .retNear => Sys2Proof.Machine.execRetNear s
  | .les r ea => Sys2Proof.Machine.execLes r ea s
  | .lds r ea => Sys2Proof.Machine.execLds r ea s
  | .movRm8Imm8 rm imm => Sys2Proof.Machine.execMovRm8Imm8 rm imm s
  | .movRmvImmv rm imm => Sys2Proof.Machine.execMovRmvImmv rm imm s
  | .enter size level => Sys2Proof.Machine.execEnter size level s
  | .leave => Sys2Proof.Machine.execLeave s
  | .retFarImm16 imm => Sys2Proof.Machine.execRetFarImm16 imm s
  | .retFar => Sys2Proof.Machine.execRetFar s
  | .int3 => Sys2Proof.Machine.execInt3 s
  | .intImm8 n => Sys2Proof.Machine.execIntImm8 n s
  | .into => Sys2Proof.Machine.execInto s
  | .iret => Sys2Proof.Machine.execIret s
  | .aam imm => Sys2Proof.Machine.execAam imm s
  | .aad imm => Sys2Proof.Machine.execAad imm s
  | .xlat => Sys2Proof.Machine.execXlat s
  | .esc op ext rm => Sys2Proof.Machine.execEsc op ext rm s
  | .loopne rel => Sys2Proof.Machine.execLoopne rel s
  | .loope rel => Sys2Proof.Machine.execLoope rel s
  | .loop rel => Sys2Proof.Machine.execLoop rel s
  | .jcxz rel => Sys2Proof.Machine.execJcxz rel s
  | .inAlImm8 port => Sys2Proof.Machine.execInAlImm8 port s
  | .inEaxImm8 port => Sys2Proof.Machine.execInEaxImm8 port s
  | .outImm8Al port => Sys2Proof.Machine.execOutImm8Al port s
  | .outImm8Eax port => Sys2Proof.Machine.execOutImm8Eax port s
  | .callRelv rel => Sys2Proof.Machine.execCallRelv rel s
  | .jmpRelv rel => Sys2Proof.Machine.execJmpRelv rel s
  | .jmpPtr off sel => Sys2Proof.Machine.execJmpPtr off sel s
  | .jmpRel8 rel => Sys2Proof.Machine.execJmpRel8 rel s
  | .inAlDx => Sys2Proof.Machine.execInAlDx s
  | .inEaxDx => Sys2Proof.Machine.execInEaxDx s
  | .outDxAl => Sys2Proof.Machine.execOutDxAl s
  | .outDxEax => Sys2Proof.Machine.execOutDxEax s
  | .hlt => Sys2Proof.Machine.execHlt s
  | .cmc => Sys2Proof.Machine.execCmc s
  | .testRm8Imm8 rm imm => Sys2Proof.Machine.execTestRm8Imm8 rm imm s
  | .notRm8 rm => Sys2Proof.Machine.execNotRm8 rm s
  | .negRm8 rm => Sys2Proof.Machine.execNegRm8 rm s
  | .mulRm8 rm => Sys2Proof.Machine.execMulRm8 rm s
  | .imulRm8 rm => Sys2Proof.Machine.execImulRm8 rm s
  | .divRm8 rm => Sys2Proof.Machine.execDivRm8 rm s
  | .idivRm8 rm => Sys2Proof.Machine.execIdivRm8 rm s
  | .testRmvImmv rm imm => Sys2Proof.Machine.execTestRmvImmv rm imm s
  | .notRmv rm => Sys2Proof.Machine.execNotRmv rm s
  | .negRmv rm => Sys2Proof.Machine.execNegRmv rm s
  | .mulRmv rm => Sys2Proof.Machine.execMulRmv rm s
  | .imulRmv rm => Sys2Proof.Machine.execImulRmv rm s
  | .divRmv rm => Sys2Proof.Machine.execDivRmv rm s
  | .idivRmv rm => Sys2Proof.Machine.execIdivRmv rm s
  | .clc => Sys2Proof.Machine.execClc s
  | .stc => Sys2Proof.Machine.execStc s
  | .cli => Sys2Proof.Machine.execCli s
  | .sti => Sys2Proof.Machine.execSti s
  | .cld => Sys2Proof.Machine.execCld s
  | .std => Sys2Proof.Machine.execStd s
  | .incRm8 rm => Sys2Proof.Machine.execIncRm8 rm s
  | .decRm8 rm => Sys2Proof.Machine.execDecRm8 rm s
  | .incRmv rm => Sys2Proof.Machine.execIncRmv rm s
  | .decRmv rm => Sys2Proof.Machine.execDecRmv rm s
  | .callRmv rm => Sys2Proof.Machine.execCallRmv rm s
  | .callM ea => Sys2Proof.Machine.execCallM ea s
  | .jmpRmv rm => Sys2Proof.Machine.execJmpRmv rm s
  | .jmpM ea => Sys2Proof.Machine.execJmpM ea s
  | .pushRmv rm => Sys2Proof.Machine.execPushRmv rm s
  | .sldt rm => Sys2Proof.Machine.execSldt rm s
  | .str rm => Sys2Proof.Machine.execStr rm s
  | .lldt rm => Sys2Proof.Machine.execLldt rm s
  | .ltr rm => Sys2Proof.Machine.execLtr rm s
  | .verr rm => Sys2Proof.Machine.execVerr rm s
  | .verw rm => Sys2Proof.Machine.execVerw rm s
  | .sgdt ea => Sys2Proof.Machine.execSgdt ea s
  | .sidt ea => Sys2Proof.Machine.execSidt ea s
  | .lgdt ea => Sys2Proof.Machine.execLgdt ea s
  | .lidt ea => Sys2Proof.Machine.execLidt ea s
  | .smsw rm => Sys2Proof.Machine.execSmsw rm s
  | .lmsw rm => Sys2Proof.Machine.execLmsw rm s
  | .lar r rm => Sys2Proof.Machine.execLar r rm s
  | .lsl r rm => Sys2Proof.Machine.execLsl r rm s
  | .clts => Sys2Proof.Machine.execClts s
  | .movR32Cr r n => Sys2Proof.Machine.execMovR32Cr r n s
  | .movR32Dr r n => Sys2Proof.Machine.execMovR32Dr r n s
  | .movCrR32 n r => Sys2Proof.Machine.execMovCrR32 n r s
  | .movDrR32 n r => Sys2Proof.Machine.execMovDrR32 n r s
  | .movR32Tr r n => Sys2Proof.Machine.execMovR32Tr r n s
  | .movTrR32 n r => Sys2Proof.Machine.execMovTrR32 n r s
  | .joRelv rel => Sys2Proof.Machine.execJoRelv rel s
  | .jnoRelv rel => Sys2Proof.Machine.execJnoRelv rel s
  | .jbRelv rel => Sys2Proof.Machine.execJbRelv rel s
  | .jaeRelv rel => Sys2Proof.Machine.execJaeRelv rel s
  | .jeRelv rel => Sys2Proof.Machine.execJeRelv rel s
  | .jneRelv rel => Sys2Proof.Machine.execJneRelv rel s
  | .jbeRelv rel => Sys2Proof.Machine.execJbeRelv rel s
  | .jaRelv rel => Sys2Proof.Machine.execJaRelv rel s
  | .jsRelv rel => Sys2Proof.Machine.execJsRelv rel s
  | .jnsRelv rel => Sys2Proof.Machine.execJnsRelv rel s
  | .jpRelv rel => Sys2Proof.Machine.execJpRelv rel s
  | .jnpRelv rel => Sys2Proof.Machine.execJnpRelv rel s
  | .jlRelv rel => Sys2Proof.Machine.execJlRelv rel s
  | .jgeRelv rel => Sys2Proof.Machine.execJgeRelv rel s
  | .jleRelv rel => Sys2Proof.Machine.execJleRelv rel s
  | .jgRelv rel => Sys2Proof.Machine.execJgRelv rel s
  | .seto rm => Sys2Proof.Machine.execSeto rm s
  | .setno rm => Sys2Proof.Machine.execSetno rm s
  | .setb rm => Sys2Proof.Machine.execSetb rm s
  | .setae rm => Sys2Proof.Machine.execSetae rm s
  | .sete rm => Sys2Proof.Machine.execSete rm s
  | .setne rm => Sys2Proof.Machine.execSetne rm s
  | .setbe rm => Sys2Proof.Machine.execSetbe rm s
  | .seta rm => Sys2Proof.Machine.execSeta rm s
  | .sets rm => Sys2Proof.Machine.execSets rm s
  | .setns rm => Sys2Proof.Machine.execSetns rm s
  | .setp rm => Sys2Proof.Machine.execSetp rm s
  | .setnp rm => Sys2Proof.Machine.execSetnp rm s
  | .setl rm => Sys2Proof.Machine.execSetl rm s
  | .setge rm => Sys2Proof.Machine.execSetge rm s
  | .setle rm => Sys2Proof.Machine.execSetle rm s
  | .setg rm => Sys2Proof.Machine.execSetg rm s
  | .btRmvRv rm r => Sys2Proof.Machine.execBtRmvRv rm r s
  | .btsRmvRv rm r => Sys2Proof.Machine.execBtsRmvRv rm r s
  | .btrRmvRv rm r => Sys2Proof.Machine.execBtrRmvRv rm r s
  | .btcRmvRv rm r => Sys2Proof.Machine.execBtcRmvRv rm r s
  | .btRmvImm8 rm imm => Sys2Proof.Machine.execBtRmvImm8 rm imm s
  | .btsRmvImm8 rm imm => Sys2Proof.Machine.execBtsRmvImm8 rm imm s
  | .btrRmvImm8 rm imm => Sys2Proof.Machine.execBtrRmvImm8 rm imm s
  | .btcRmvImm8 rm imm => Sys2Proof.Machine.execBtcRmvImm8 rm imm s
  | .shldImm8 rm r imm => Sys2Proof.Machine.execShldImm8 rm r imm s
  | .shldCl rm r => Sys2Proof.Machine.execShldCl rm r s
  | .shrdImm8 rm r imm => Sys2Proof.Machine.execShrdImm8 rm r imm s
  | .shrdCl rm r => Sys2Proof.Machine.execShrdCl rm r s
  | .imulRvRmv r rm => Sys2Proof.Machine.execImulRvRmv r rm s
  | .lss r ea => Sys2Proof.Machine.execLss r ea s
  | .lfs r ea => Sys2Proof.Machine.execLfs r ea s
  | .lgs r ea => Sys2Proof.Machine.execLgs r ea s
  | .movzxRvRm8 r rm => Sys2Proof.Machine.execMovzxRvRm8 r rm s
  | .movzxR32Rm16 r rm => Sys2Proof.Machine.execMovzxR32Rm16 r rm s
  | .bsf r rm => Sys2Proof.Machine.execBsf r rm s
  | .bsr r rm => Sys2Proof.Machine.execBsr r rm s
  | .movsxRvRm8 r rm => Sys2Proof.Machine.execMovsxRvRm8 r rm s
  | .movsxR32Rm16 r rm => Sys2Proof.Machine.execMovsxR32Rm16 r rm s
  | .segEs => Sys2Proof.Machine.execSegEs s
  | .segCs => Sys2Proof.Machine.execSegCs s
  | .segSs => Sys2Proof.Machine.execSegSs s
  | .segDs => Sys2Proof.Machine.execSegDs s
  | .segFs => Sys2Proof.Machine.execSegFs s
  | .segGs => Sys2Proof.Machine.execSegGs s
  | .opSize => Sys2Proof.Machine.execOpSize s
  | .addrSize => Sys2Proof.Machine.execAddrSize s
  | .lockPrefix => Sys2Proof.Machine.execLockPrefix s
  | .repne => Sys2Proof.Machine.execRepne s
  | .rep => Sys2Proof.Machine.execRep s

end Sys2Proof.Machine
end

