-- ==== Sys2Proof/Machine/Fetch.lean ====
section
/-! DEFINITION. Instruction fetch and decoding at CS:EIP (20_memory.md R131, R188, 30_encoding.md R208, R240). The
opcode maps of Decode.lean are noncomputable for the compiler (its limit on constructors), so what uses them is too;
the kernel evaluates all of it. -/

namespace Sys2Proof.Machine

noncomputable section

/-- Where a code byte is: the physical address of a linear one, if it can be fetched (20_memory.md R131). Nothing
is changed: prefetching faults nothing. The translation is that of the paging registers and tables now, also right after
MOV to CR0 changed PG: no byte prefetched under the old mapping is ever used, the model's choice
(47_protection_model.md R531, 70_reset_and_hazards.md R714, log 28). Other masters write before the fetch or after it
(log 27). -/
def codeAddr (s : State) (lin : Dword) : Option Dword :=
  match translate lin false false { s with masters := [] } with
  | .ok p _ => some p
  | .error _ _ => none

/-- The older values of a physical byte that the prefetch queue may still hold (20_memory.md R188, log 7). -/
def State.olderValues (s : State) (p : Dword) : List Byte :=
  s.prefetch.filterMap fun c => if c.1 = p.toNat then some c.2 else none

/-- What a code fetch cycle shows of a physical byte: a free value where no memory answers (20_memory.md R104,
log 10). -/
def State.codeByte (s : State) (p : Dword) (k : Nat) : Byte :=
  match s.kindAt p with
  | .ram | .rom => s.mem.read p.toNat
  | .device | .absent => (Config.freeValue (s.free + k)).setWidth 8

/-- The value a fetch of a physical byte sees: what memory holds, or any older value of that physical byte that may be
queued (20_memory.md R188, log 7). Bytes queued under another mapping are no candidates, also after a change of PG: the
model's choice (70_reset_and_hazards.md R714, log 28). -/
def fetchedByte (s : State) (p : Dword) (k : Nat) : Byte :=
  match s.olderValues p with
  | [] => s.codeByte p k
  | v :: vs =>
    (s.codeByte p k :: v :: vs).getD ((Config.freeValue (s.free + k)).toNat % (vs.length + 2)) (s.codeByte p k)

/-- The offset of the `k`-th byte still to be fetched, modulo 2^32 (10_state.md R26). -/
def State.fetchOffset (s : State) (k : Nat) : Dword := s.eip + BitVec.ofNat 32 (s.dec.len + k)

/-- The `k`-th byte from where the fetch stands, if it can be fetched without a fault (20_memory.md R131). -/
def windowByte (s : State) (k : Nat) : Option Byte :=
  if s.segs.cs.limit < s.fetchOffset k then none
  else (codeAddr s (s.segs.cs.base + s.fetchOffset k)).map fun p => fetchedByte s p k

/-- The next bytes, at most `n`, up to the first that cannot be fetched. -/
def windowFrom (s : State) : (n k : Nat) → List Byte
  | 0, _ => []
  | n + 1, k =>
    match windowByte s k with
    | none => []
    | some b => b :: windowFrom s n (k + 1)

/-- The bytes the instruction may still have: 15 in all (30_encoding.md R208). -/
def fetchWindow (s : State) : List Byte := windowFrom s (Config.maxInstrLen - s.dec.len) 0

/-- FetchByte for the bytes the instruction really needs: limit, then page (20_memory.md R131). -/
def touchBytes : (n k : Nat) → M Unit
  | 0, _ => pure ()
  | n + 1, k => do
    let s ← get
    require (decide (s.fetchOffset k ≤ s.segs.cs.limit)) (.gp 0)
    let _ ← translate (s.segs.cs.base + s.fetchOffset k) false false
    touchBytes n (k + 1)

/-- Count the bytes an instruction took, with its prefixes. -/
def tookBytes (n : Nat) : M Unit := modify fun s => { s with dec := { s.dec with len := s.dec.len + n } }

/-- Fetch and decode one prefix or instruction at CS:EIP (30_encoding.md R240): the limit and page faults of its
bytes, #UD for a reserved encoding or a LOCK that is not allowed (R204, R245), #GP(0) for a 16th byte (R208). Where the
bytes end before the instruction, at a page that another master makes present before it is touched, fetching begins
again (log 27); each time at least one byte more is there, so the count does not run out. -/
def fetchFrom : Nat → M Instr
  | 0 => raise (.gp 0)
  | n + 1 => do
  let s ← get
  let bytes := fetchWindow s
  if s.prefetch.isEmpty && s.map.isEmpty then pure () else modify fun u => { u with free := u.free + Config.maxInstrLen }
  match decode s.os32 s.as32 bytes with
  | .ok (i, rest) => do
    touchBytes (bytes.length - rest.length) 0
    tookBytes (bytes.length - rest.length)
    require (!s.dec.lock || i.lockable || i.isPrefix) .ud
    pure i
  | .error .short => do
    touchBytes (bytes.length + 1) 0
    if Config.maxInstrLen ≤ s.dec.len + bytes.length then raise (.gp 0) else fetchFrom n
  | .error (.invalid rest) => do
    touchBytes (bytes.length - rest.length) 0
    raise .ud
  | .error (.undocumented rest) => do
    touchBytes (bytes.length - rest.length) 0
    refuse .undocumentedOpcode

/-- The next prefix or instruction. -/
def fetchInstr : M Instr := fetchFrom (Config.maxInstrLen + 1)

end

end Sys2Proof.Machine
end

