-- ==== Sys2Proof/Machine/Cycle.lean ====
section
/-! DEFINITION. What a step does around an instruction (60_exceptions.md R630): the inputs, debug traps and
breakpoints, NMI and INTR, halt and shutdown, the prefixes. -/

namespace Sys2Proof.Machine

noncomputable section

/-! Inputs (log 9). -/

/-- Reset() in a running machine (70_reset_and_hazards.md R700): every field as after reset, but memory, the board and
what its devices saw, the inputs and their pins, the other masters, and the counter of free values; the coprocessor
protocol is sampled from ERROR# (R704), and EAX holds the self-test signature (R703). -/
def State.resetBy (s : State) (selfTest : Bool) : State :=
  { State.reset with
    regs := { State.reset.regs with eax := if selfTest then 0 else State.reset.regs.eax }
    mem := s.mem
    ioLog := s.ioLog
    inputs := s.inputs
    masters := s.masters
    map := s.map
    ports := s.ports
    pins := s.pins
    free := s.free
    protocol387 := s.pins.error }

/-- What an input event does (60_exceptions.md R620, R621). -/
def State.applyInput (s : State) : Input → State
  | .pins p => { s with pins := p }
  | .nmi => { s with nmiPending := true }
  | .reset selfTest => s.resetBy selfTest

/-- Take the next input event, if there is one. Events, RESET among them, fall between steps only, so of the memory
writes of an instruction that RESET cuts off either all or none are made: the model's choice
(70_reset_and_hazards.md R700, log 9). -/
def State.takeInput (s : State) : State :=
  match s.inputs with
  | [] => s
  | i :: is => ({ s with inputs := is } : State).applyInput i

/-- What the world does before a step: the next input event, then what other masters write (20_memory.md R186). -/
def State.boundary (s : State) : State := s.takeInput.othersWrite

/-! Debug traps and breakpoints at a boundary (60_exceptions.md R630 steps 1 and 2, R681 to R686). -/

/-- Which held data-breakpoint traps are reported at the boundary of an instruction, and the state then: those matched
under GE or LE, and of the others each as a free value of its own says (60_exceptions.md R686,
93_implementation_defined.md U15; one decision for each breakpoint and boundary is the model's choice, log 22). -/
def State.dueData (s : State) : BitVec 4 × State := s.decideHeld.takeExact

/-- The breakpoints whose execution condition the instruction at CS:EIP meets (60_exceptions.md R681). -/
def State.executionMatches (s : State) : BitVec 4 :=
  bits4 fun i => bpRw s.dr7 i == 0 && bpLenField s.dr7 i == 0 && s.dr.get i == s.segs.cs.base + s.eip

/-- The instruction breakpoints to report: none if RF is set or none of the matching ones is enabled
(60_exceptions.md R630, R683). A disabled one of undefined encoding may or may not match (log 22). -/
def State.dueBreakpoints (s : State) : BitVec 4 :=
  if s.flags.rf ∨ s.executionMatches &&& bpEnabled s.dr7 = 0 then 0
  else s.executionMatches ||| ((Config.freeValue s.free).setWidth 4 &&& bpUndefined s.dr7)

/-- Deliver exception 1 for what is due (60_exceptions.md R630): what is reported is no longer pending (log 23). -/
def reportDebug (bs bt : Bool) (bits : BitVec 4) (rfImage : Bool) (s : State) : Result :=
  let t : State :=
    { s with
      run := .running
      free := s.free + 1
      dr6 := { b := s.dr6.b ||| bits, bd := s.dr6.bd, bs := s.dr6.bs || bs, bt := s.dr6.bt || bt }
      pend := { s.pend with bs := s.pend.bs && !bs, bt := s.pend.bt && !bt } }
  delivered (deliverPlain (deliverOnce 1 false t.eip none rfImage) t.eip) t

/-! External interrupts (60_exceptions.md R621, R622). -/

/-- Serve a pending NMI: IF is cleared after the delivery unless it was a task switch (60_exceptions.md R621,
log 19). `deliver` deals with a delivery that fails. -/
def takeNmi (deliver : M Bool → M Bool) (s : State) : Result :=
  let t : State := { s with run := .running, nmiPending := false, nmiInService := true }
  delivered (do
    let viaTask ← deliver (deliverOnce 2 false t.eip none t.flags.rf)
    if viaTask then pure true
    else do
      modify fun u => { u with flags := { u.flags with ifl := false } }
      pure false) t

/-- Serve INTR with the vector of the acknowledge cycle (60_exceptions.md R622, R623). A failure to deliver vector 8
is shutdown, whatever asked for the vector (R618). -/
def takeIntr (s : State) : Result :=
  let t : State := { s with run := .running }
  let once := deliverOnce t.pins.vector.toNat false t.eip none t.flags.rf
  delivered (if t.pins.vector = 8 then deliverLast once else deliverPlain once t.eip) t

/-- Serve NMI, else INTR, if one is to be recognised, else go on (60_exceptions.md R630 step 3). -/
def serveExternal (inh : Bool) (s : State) (goOn : State → Result) :
    Result :=
  if !inh && s.nmiPending && !s.nmiInService then takeNmi (fun once => deliverPlain once s.eip) s
  else if !inh && s.pins.intr && s.flags.ifl then takeIntr s
  else goOn s

/-! One instruction with its prefixes (30_encoding.md R240). -/

/-- Fetch, decode and execute, prefix after prefix; the 16th byte faults before the count runs out
(30_encoding.md R208). -/
def runPrefixed : Nat → State → Result
  | 0, s => takeExn s s (.gp 0)
  | n + 1, s =>
    match fetchInstr s with
    | .error e t => stopped s t e
    | .ok i t =>
      if i.isPrefix then
        match exec i t with
        | .next u => runPrefixed n u
        | r => r
      else exec i t

/-- The instruction at CS:EIP. -/
def runInstruction (s : State) : Result := runPrefixed (Config.maxInstrLen + 1) s

/-! The three run states (10_state.md R84). -/

/-- A step while running (60_exceptions.md R630). An enabled breakpoint of undefined encoding has no matching rule
(93_implementation_defined.md U2, log 13). -/
def stepRunning (s : State) : Result :=
  if bpUndefined s.dr7 &&& bpEnabled s.dr7 ≠ 0 then .refused .undefinedBreakpoint
  else
    let bs := s.pend.bs && !s.inhibit
    let bt := s.pend.bt && !s.inhibit
    let d := if s.inhibit then (0, s) else s.dueData
    let f := d.2.dueBreakpoints
    let t : State := { d.2 with inhibit := false }
    if bs || bt || decide (d.1 ≠ 0) || decide (f ≠ 0) then
      reportDebug bs bt (d.1 ||| f) (decide (f ≠ 0) || s.flags.rf) t
    else serveExternal s.inhibit t runInstruction

/-- A step while halted: a trap due at HLT's own boundary is taken, else only NMI and INTR are looked at
(48_processor_control.md R541, 60_exceptions.md R630). What that boundary reports of the inexact data breakpoints HLT
has decided (`halt`), so what is still held waits until the halt ends (log 22). -/
def stepHalted (s : State) : Result :=
  let d := if s.inhibit then (0, s) else s.takeExact
  let t : State := { d.2 with inhibit := false }
  let bs := s.pend.bs && !s.inhibit
  let bt := s.pend.bt && !s.inhibit
  if bs || bt || decide (d.1 ≠ 0) then reportDebug bs bt d.1 s.flags.rf t
  else serveExternal s.inhibit t .next

/-- A step in shutdown: NMI ends it under the conditions of 60_exceptions.md R690, with SP as the failed delivery left it
(`State.shutDown`); if it cannot be delivered the processor shuts down again (log 20). -/
def stepShutdown (s : State) : Result :=
  if s.nmiPending && !s.nmiInService &&
      (s.cr0.pe || (decide (0x17 ≤ s.idtr.limit.toNat) && decide (5 < (s.regs.esp.extractLsb' 0 16).toNat))) then
    takeNmi deliverLast s
  else .next s

/-- A step once its input event is taken. -/
def stepRunState (s : State) : Result :=
  match s.run with
  | .running => stepRunning s
  | .halted => stepHalted s
  | .shutdown => stepShutdown s

/-! Placing an instruction for the host. -/

/-- Bytes stored at successive code addresses, the first `k` bytes after the fetch offset. -/
def placeCode (s : State) (m : Memory) : (k : Nat) → List Byte → Memory
  | _, [] => m
  | k, b :: bs =>
    let lin := s.segs.cs.base + s.fetchOffset k
    placeCode s (m.write ((codeAddr s lin).getD lin).toNat b) (k + 1) bs

end

end Sys2Proof.Machine
end

