-- ==== Sys2Proof/Machine/Step.lean ====
section
/-! DEFINITION. The step function, and the place of an instruction for the host. -/

namespace Sys2Proof.Machine

noncomputable section

/-- One step (00_scope.md R9): what the world does before it, then what the run state does. -/
def step (s : State) : Host.Outcome State Fault Refusal := stepRunState s.boundary

/-- The state with an instruction stored where the next step fetches it: the bytes at CS:EIP, nothing older queued
(log 8). -/
def State.withFetchWord (s : State) (nbits w : Nat) : State :=
  { s with mem := placeCode s s.mem 0 (tableBytes nbits w), prefetch := [] }

end

end Sys2Proof.Machine
end

