-- ==== Sys2Proof/Safety.lean ====
section
/-! DEFINITION. What claims call a safe step and a safe run, the invariant of the machine, and what an access and a
completed instruction may change. -/

namespace Sys2Proof.Machine

/-- A step that neither faults nor is refused. -/
def StepsOn (s : State) : Prop := ∃ t, step s = .next t

/-- A run of `n` steps none of which stops. -/
def SafeFor : Nat → State → Prop
  | 0, _ => True
  | n + 1, s => ∃ t, step s = .next t ∧ SafeFor n t

/-- The invariant that every step keeps: memory in canonical form; 32 TLB entries; CPL 0 and no Virtual 8086 Mode in
Real Mode (45_control_transfer.md R488, 47_protection_model.md R510); CPL 3 in Virtual 8086 Mode (10_state.md R43);
paging only in Protected Mode (20_memory.md R140); nothing in progress between steps (log 6). -/
structure Inv (s : State) : Prop where
  mem : s.mem.wf = true
  tlb : s.tlb.length = 32
  real : s.cr0.pe = false → s.cpl = 0 ∧ s.flags.vm = false
  virtual : s.flags.vm = true → s.cpl = 3
  paging : s.cr0.pg = true → s.cr0.pe = true
  idle : s.dec = InProgress.empty

/-- The closed world that claims speak of unless they say otherwise: all 2^32 bytes are RAM (20_memory.md R104) and
there is no other bus master (R116, R186); memory in canonical form. -/
def State.closed (s : State) : Bool := s.mem.wf && s.masters.isEmpty && s.map.isEmpty

/-- A byte that nothing but a page walk may have changed: the same with paging off, and but for its bits 5 and 6, where
the A and D bits of a page table entry lie, with paging on (20_memory.md R142, R150). -/
def SameByte (paging : Bool) (x y : Byte) : Prop := if paging then x &&& 0x9F = y &&& 0x9F else x = y

/-- What the accesses of an instruction may change before anything is written: A and D bits in memory, the TLB, the
queue of older code bytes, the counter of free values, the data breakpoints matched and LOCK#; outside the closed world
also what other masters write and devices see. -/
structure Touched (s u : State) : Prop where
  rest : u = { s with mem := u.mem, prefetch := u.prefetch, tlb := u.tlb, free := u.free, ioLog := u.ioLog,
                      masters := u.masters, dec := { s.dec with hits := u.dec.hits, held := u.dec.held } }
  wf : s.mem.wf = true → u.mem.wf = true
  tlb : s.tlb.length = 32 → u.tlb.length = 32
  closed : s.closed = true → u.masters = [] ∧ u.ioLog = s.ioLog
  bytes : s.closed = true → ∀ a : Dword, SameByte s.cr0.pg (u.mem.read a.toNat) (s.mem.read a.toNat)
  direct : s.closed = true → s.cr0.pg = false →
    u = { s with dec := { s.dec with hits := u.dec.hits, held := u.dec.held } }

/-- The registers with a register operand written; a memory operand is none. -/
def Regs.put (g : Regs) (w : Width) (p : Place) (v : BitVec w.bits) : Regs :=
  match p with
  | .reg r => g.write w r v
  | .mem _ => g

/-- The flags as a completed instruction leaves them: RF is cleared (10_state.md R42, 60_exceptions.md R630). -/
def Flags.settled (f : Flags) : Flags := { f with rf := false }

/-- What an instruction that began in `s` leaves in `t` when it writes nothing but general registers, flags, EIP and
the bytes `stored`: these four as given, and everything else as in `s`, but for what paging records (A and D bits,
the TLB), what an enabled data breakpoint records (60_exceptions.md R683) and the single-step trap (R682). -/
structure After (s t : State) (regs : Regs) (flags : Flags) (eip : Dword) (stored : List Dword) : Prop where
  regs : t.regs = regs
  flags : t.flags = flags
  eip : t.eip = eip
  bytes : ∀ a : Dword, a ∉ stored → SameByte s.cr0.pg (t.mem.read a.toNat) (s.mem.read a.toNat)
  segs : t.segs = s.segs
  cpl : t.cpl = s.cpl
  cr0 : t.cr0 = s.cr0
  cr2 : t.cr2 = s.cr2
  cr3 : t.cr3 = s.cr3
  gdtr : t.gdtr = s.gdtr
  idtr : t.idtr = s.idtr
  ldtr : t.ldtr = s.ldtr
  tr : t.tr = s.tr
  dr : t.dr = s.dr
  dr6 : bpEnabled s.dr7 = 0 → t.dr6 = s.dr6
  dr7 : t.dr7 = s.dr7
  tr6 : t.tr6 = s.tr6
  tr7 : t.tr7 = s.tr7
  tlb : s.cr0.pg = false → t.tlb = s.tlb
  nmi : t.nmiPending = s.nmiPending ∧ t.nmiInService = s.nmiInService
  inhibit : t.inhibit = s.inhibit
  run : t.run = s.run
  trap : t.pend.bs = (s.pend.bs || s.flags.tf) ∧ t.pend.bt = s.pend.bt
  protocol : t.protocol387 = s.protocol387
  pins : t.pins = s.pins
  inputs : t.inputs = s.inputs
  masters : t.masters = s.masters
  map : t.map = s.map
  ports : t.ports = s.ports
  ioLog : t.ioLog = s.ioLog
  idle : t.dec = InProgress.empty

end Sys2Proof.Machine
end

