-- ==== Sys2Proof/Forms.lean ====
section
/-! DEFINITION. The shapes of instructions that claims speak of: which constructors share a shape, with their operands,
and what "completes with this result" means for each shape. -/

namespace Sys2Proof.Machine

/-! Completion. -/

/-- `i` completes in `s` and leaves the registers `g`, the flags `f` (with RF cleared) and nothing else changed. -/
def Sets (s : State) (i : Instr) (g : Regs) (f : Flags) : Prop :=
  ∃ t, exec i s = .next t ∧ After s t g f.settled s.nextEip []

/-- `i` completes in `s`: it leaves the registers `g` but for writing `v` to the place `p`, the flags `f` (with RF
cleared) and nothing else changed. -/
def WritesOver (s : State) (i : Instr) (g : Regs) (w : Width) (p : Place) (v : BitVec w.bits) (f : Flags) : Prop :=
  ∃ t, exec i s = .next t ∧ After s t (g.put w p v) f.settled s.nextEip p.bytes ∧ t.placeValue w p = v

/-- `i` completes in `s` and writes `v` to the place `p`, leaves the flags `f` (with RF cleared) and nothing else
changed. -/
def Writes (s : State) (i : Instr) (w : Width) (p : Place) (v : BitVec w.bits) (f : Flags) : Prop :=
  WritesOver s i s.regs w p v f

/-- `i` completes in `s`, leaves the registers `g`, the flags `f` (with RF cleared) and EIP `e`, and nothing else
changed. -/
def Goes (s : State) (i : Instr) (g : Regs) (f : Flags) (e : Dword) : Prop :=
  ∃ t, exec i s = .next t ∧ After s t g f.settled e []

/-! Two-operand forms (41_arithmetic.md R361). -/

/-- The nine encodings of a two-operand instruction (30_encoding.md R230). -/
structure AluForms where
  rm8R8 : Rm → Reg → Instr
  rmvRv : Rm → Reg → Instr
  r8Rm8 : Reg → Rm → Instr
  rvRmv : Reg → Rm → Instr
  alImm8 : Byte → Instr
  eaxImmv : Dword → Instr
  rm8Imm8 : Rm → Byte → Instr
  rmvImmv : Rm → Dword → Instr
  rmvSimm8 : Rm → Byte → Instr

/-- ADD. -/
def addForms : AluForms :=
  ⟨.addRm8R8, .addRmvRv, .addR8Rm8, .addRvRmv, .addAlImm8, .addEaxImmv, .addRm8Imm8, .addRmvImmv, .addRmvSimm8⟩

/-- OR. -/
def orForms : AluForms :=
  ⟨.orRm8R8, .orRmvRv, .orR8Rm8, .orRvRmv, .orAlImm8, .orEaxImmv, .orRm8Imm8, .orRmvImmv, .orRmvSimm8⟩

/-- ADC. -/
def adcForms : AluForms :=
  ⟨.adcRm8R8, .adcRmvRv, .adcR8Rm8, .adcRvRmv, .adcAlImm8, .adcEaxImmv, .adcRm8Imm8, .adcRmvImmv, .adcRmvSimm8⟩

/-- SBB. -/
def sbbForms : AluForms :=
  ⟨.sbbRm8R8, .sbbRmvRv, .sbbR8Rm8, .sbbRvRmv, .sbbAlImm8, .sbbEaxImmv, .sbbRm8Imm8, .sbbRmvImmv, .sbbRmvSimm8⟩

/-- AND. -/
def andForms : AluForms :=
  ⟨.andRm8R8, .andRmvRv, .andR8Rm8, .andRvRmv, .andAlImm8, .andEaxImmv, .andRm8Imm8, .andRmvImmv, .andRmvSimm8⟩

/-- SUB. -/
def subForms : AluForms :=
  ⟨.subRm8R8, .subRmvRv, .subR8Rm8, .subRvRmv, .subAlImm8, .subEaxImmv, .subRm8Imm8, .subRmvImmv, .subRmvSimm8⟩

/-- XOR. -/
def xorForms : AluForms :=
  ⟨.xorRm8R8, .xorRmvRv, .xorR8Rm8, .xorRvRmv, .xorAlImm8, .xorEaxImmv, .xorRm8Imm8, .xorRmvImmv, .xorRmvSimm8⟩

/-- CMP. -/
def cmpForms : AluForms :=
  ⟨.cmpRm8R8, .cmpRmvRv, .cmpR8Rm8, .cmpRvRmv, .cmpAlImm8, .cmpEaxImmv, .cmpRm8Imm8, .cmpRmvImmv, .cmpRmvSimm8⟩

/-- The forms whose first operand is r/m or the accumulator: width, first operand, and the value of the second. -/
inductive AluForms.ToRm (F : AluForms) (s : State) : Instr → (w : Width) → Rm → BitVec w.bits → Prop
  | rm8R8 (rm : Rm) (r : Reg) : ToRm F s (F.rm8R8 rm r) .w8 rm (s.regs.read .w8 r)
  | rmvRv (rm : Rm) (r : Reg) : ToRm F s (F.rmvRv rm r) s.vWidth rm (s.regs.read s.vWidth r)
  | alImm8 (imm : Byte) : ToRm F s (F.alImm8 imm) .w8 (.reg .eax) imm
  | eaxImmv (imm : Dword) : ToRm F s (F.eaxImmv imm) s.vWidth (.reg .eax) (imm.setWidth s.vWidth.bits)
  | rm8Imm8 (rm : Rm) (imm : Byte) : ToRm F s (F.rm8Imm8 rm imm) .w8 rm imm
  | rmvImmv (rm : Rm) (imm : Dword) : ToRm F s (F.rmvImmv rm imm) s.vWidth rm (imm.setWidth s.vWidth.bits)
  | rmvSimm8 (rm : Rm) (imm : Byte) : ToRm F s (F.rmvSimm8 rm imm) s.vWidth rm (imm.signExtend s.vWidth.bits)

/-- The forms whose first operand is a register and whose second is r/m. -/
inductive AluForms.FromRm (F : AluForms) (s : State) : Instr → Width → Reg → Rm → Prop
  | r8Rm8 (r : Reg) (rm : Rm) : FromRm F s (F.r8Rm8 r rm) .w8 r rm
  | rvRmv (r : Reg) (rm : Rm) : FromRm F s (F.rvRmv r rm) s.vWidth r rm

/-- The result and the flags of a two-operand instruction that writes its result (41_arithmetic.md R362, R363, R367,
R368, 43_logical_shift_rotate.md R422 to R424); AF of a logical one is any value (93_implementation_defined.md
U25). -/
inductive BinaryRule (s : State) {w : Width} (a b : BitVec w.bits) : AluForms → BitVec w.bits → Flags → Prop
  | add : BinaryRule s a b addForms (a + b) (s.flags.adding a b false)
  | adc : BinaryRule s a b adcForms (a + b + BitVec.ofNat w.bits s.flags.cf.toNat) (s.flags.adding a b s.flags.cf)
  | sub : BinaryRule s a b subForms (a - b) (s.flags.subtracting a b false)
  | sbb : BinaryRule s a b sbbForms (a - b - BitVec.ofNat w.bits s.flags.cf.toNat)
      (s.flags.subtracting a b s.flags.cf)
  | and (af : Bool) : BinaryRule s a b andForms (a &&& b) (s.flags.logical (a &&& b) af)
  | or (af : Bool) : BinaryRule s a b orForms (a ||| b) (s.flags.logical (a ||| b) af)
  | xor (af : Bool) : BinaryRule s a b xorForms (a ^^^ b) (s.flags.logical (a ^^^ b) af)

/-- The instructions the rule speaks of. -/
def binaryForms : List AluForms := [addForms, adcForms, subForms, sbbForms, andForms, orForms, xorForms]

/-- The forms of TEST: width, first operand, and the value of the second (43_logical_shift_rotate.md R425). -/
inductive TestForm (s : State) : Instr → (w : Width) → Rm → BitVec w.bits → Prop
  | rm8R8 (rm : Rm) (r : Reg) : TestForm s (.testRm8R8 rm r) .w8 rm (s.regs.read .w8 r)
  | rmvRv (rm : Rm) (r : Reg) : TestForm s (.testRmvRv rm r) s.vWidth rm (s.regs.read s.vWidth r)
  | alImm8 (imm : Byte) : TestForm s (.testAlImm8 imm) .w8 (.reg .eax) imm
  | eaxImmv (imm : Dword) : TestForm s (.testEaxImmv imm) s.vWidth (.reg .eax) (imm.setWidth s.vWidth.bits)
  | rm8Imm8 (rm : Rm) (imm : Byte) : TestForm s (.testRm8Imm8 rm imm) .w8 rm imm
  | rmvImmv (rm : Rm) (imm : Dword) : TestForm s (.testRmvImmv rm imm) s.vWidth rm (imm.setWidth s.vWidth.bits)

/-! One-operand forms. -/

/-- INC, DEC, NEG and NOT: width, operand, and result and flags for the operand's value (41_arithmetic.md R364, R369,
R370, 43_logical_shift_rotate.md R421). -/
inductive UnaryForm (s : State) :
    Instr → (w : Width) → Rm → (BitVec w.bits → BitVec w.bits) → (BitVec w.bits → Flags) → Prop
  | incRv (r : Reg) : UnaryForm s (.incRv r) s.vWidth (.reg r) (· + 1)
      fun a => { s.flags.adding a 1 false with cf := s.flags.cf }
  | incRm8 (rm : Rm) : UnaryForm s (.incRm8 rm) .w8 rm (· + 1)
      fun a => { s.flags.adding a 1 false with cf := s.flags.cf }
  | incRmv (rm : Rm) : UnaryForm s (.incRmv rm) s.vWidth rm (· + 1)
      fun a => { s.flags.adding a 1 false with cf := s.flags.cf }
  | decRv (r : Reg) : UnaryForm s (.decRv r) s.vWidth (.reg r) (· - 1)
      fun a => { s.flags.subtracting a 1 false with cf := s.flags.cf }
  | decRm8 (rm : Rm) : UnaryForm s (.decRm8 rm) .w8 rm (· - 1)
      fun a => { s.flags.subtracting a 1 false with cf := s.flags.cf }
  | decRmv (rm : Rm) : UnaryForm s (.decRmv rm) s.vWidth rm (· - 1)
      fun a => { s.flags.subtracting a 1 false with cf := s.flags.cf }
  | negRm8 (rm : Rm) : UnaryForm s (.negRm8 rm) .w8 rm (0 - ·) fun a => s.flags.subtracting 0 a false
  | negRmv (rm : Rm) : UnaryForm s (.negRmv rm) s.vWidth rm (0 - ·) fun a => s.flags.subtracting 0 a false
  | notRm8 (rm : Rm) : UnaryForm s (.notRm8 rm) .w8 rm (~~~·) fun _ => s.flags
  | notRmv (rm : Rm) : UnaryForm s (.notRmv rm) s.vWidth rm (~~~·) fun _ => s.flags

/-! Multiplication and division (41_arithmetic.md R380 to R386). -/

/-- MUL (unsigned) and one-operand IMUL (signed). -/
inductive MulForm (s : State) : Instr → Width → Rm → Bool → Prop
  | mulRm8 (rm : Rm) : MulForm s (.mulRm8 rm) .w8 rm false
  | mulRmv (rm : Rm) : MulForm s (.mulRmv rm) s.vWidth rm false
  | imulRm8 (rm : Rm) : MulForm s (.imulRm8 rm) .w8 rm true
  | imulRmv (rm : Rm) : MulForm s (.imulRmv rm) s.vWidth rm true

/-- IMUL with two or three operands: width, destination, r/m source and the other factor. -/
inductive MulRegForm (s : State) : Instr → (w : Width) → Reg → Rm → BitVec w.bits → Prop
  | two (r : Reg) (rm : Rm) : MulRegForm s (.imulRvRmv r rm) s.vWidth r rm (s.regs.read s.vWidth r)
  | immv (r : Reg) (rm : Rm) (imm : Dword) :
      MulRegForm s (.imulRvRmvImmv r rm imm) s.vWidth r rm (imm.setWidth s.vWidth.bits)
  | simm8 (r : Reg) (rm : Rm) (imm : Byte) :
      MulRegForm s (.imulRvRmvSimm8 r rm imm) s.vWidth r rm (imm.signExtend s.vWidth.bits)

/-- DIV (unsigned) and IDIV (signed). -/
inductive DivForm (s : State) : Instr → Width → Rm → Bool → Prop
  | divRm8 (rm : Rm) : DivForm s (.divRm8 rm) .w8 rm false
  | divRmv (rm : Rm) : DivForm s (.divRmv rm) s.vWidth rm false
  | idivRm8 (rm : Rm) : DivForm s (.idivRm8 rm) .w8 rm true
  | idivRmv (rm : Rm) : DivForm s (.idivRmv rm) s.vWidth rm true

/-- A number as unsigned or signed. -/
def asInt {n : Nat} (signed : Bool) (a : BitVec n) : Int := if signed then a.toInt else a.toNat

/-- A number fits in `n` bits, unsigned or signed. -/
def Fits (signed : Bool) (n : Nat) (v : Int) : Prop :=
  if signed then -2 ^ (n - 1) ≤ v ∧ v < 2 ^ (n - 1) else 0 ≤ v ∧ v < 2 ^ n

/-- AX, DX:AX or EDX:EAX. -/
def Regs.double (g : Regs) (w : Width) : BitVec (2 * w.bits) :=
  match w with
  | .w8 => g.read .w16 .eax
  | .w16 => g.read .w16 .edx ++ g.read .w16 .eax
  | .w32 => g.edx ++ g.eax

/-- The registers with AX, DX:AX or EDX:EAX written. -/
def Regs.withDouble (g : Regs) (w : Width) (v : BitVec (2 * w.bits)) : Regs :=
  match w with
  | .w8 => g.write .w16 .eax (v.setWidth 16)
  | .w16 => (g.write .w16 .eax (v.extractLsb' 0 16)).write .w16 .edx (v.extractLsb' 16 16)
  | .w32 => { g with eax := v.extractLsb' 0 32, edx := v.extractLsb' 32 32 }

/-- The registers with a quotient in AL, AX or EAX and a remainder in AH, DX or EDX. -/
def Regs.withQuotient (g : Regs) (w : Width) (q r : BitVec w.bits) : Regs :=
  match w with
  | .w8 => (g.write .w8 .eax q).write .w8 regAh r
  | .w16 => (g.write .w16 .eax q).write .w16 .edx r
  | .w32 => { g with eax := q, edx := r }

/-! Shifts, rotates and bits. -/

/-- The shifts and rotates of 43_logical_shift_rotate.md R430. -/
inductive ShiftOp where
  | rol | ror | rcl | rcr | shl | shr | sar
deriving DecidableEq, Repr

/-- A rotate writes CF and OF only (43_logical_shift_rotate.md R440). -/
def ShiftOp.rotates : ShiftOp → Bool
  | .rol | .ror | .rcl | .rcr => true
  | .shl | .shr | .sar => false

/-- The six encodings of a shift or rotate (43_logical_shift_rotate.md R430). -/
structure ShiftForms where
  rm8Imm8 : Rm → Byte → Instr
  rmvImm8 : Rm → Byte → Instr
  rm8One : Rm → Instr
  rmvOne : Rm → Instr
  rm8Cl : Rm → Instr
  rmvCl : Rm → Instr

/-- The encodings of each. -/
def ShiftOp.forms : ShiftOp → ShiftForms
  | .rol => ⟨.rolRm8Imm8, .rolRmvImm8, .rolRm8One, .rolRmvOne, .rolRm8Cl, .rolRmvCl⟩
  | .ror => ⟨.rorRm8Imm8, .rorRmvImm8, .rorRm8One, .rorRmvOne, .rorRm8Cl, .rorRmvCl⟩
  | .rcl => ⟨.rclRm8Imm8, .rclRmvImm8, .rclRm8One, .rclRmvOne, .rclRm8Cl, .rclRmvCl⟩
  | .rcr => ⟨.rcrRm8Imm8, .rcrRmvImm8, .rcrRm8One, .rcrRmvOne, .rcrRm8Cl, .rcrRmvCl⟩
  | .shl => ⟨.shlRm8Imm8, .shlRmvImm8, .shlRm8One, .shlRmvOne, .shlRm8Cl, .shlRmvCl⟩
  | .shr => ⟨.shrRm8Imm8, .shrRmvImm8, .shrRm8One, .shrRmvOne, .shrRm8Cl, .shrRmvCl⟩
  | .sar => ⟨.sarRm8Imm8, .sarRmvImm8, .sarRm8One, .sarRmvOne, .sarRm8Cl, .sarRmvCl⟩

/-- Width, operand and count byte of each form. -/
inductive ShiftForm (s : State) (op : ShiftOp) : Instr → Width → Rm → Byte → Prop
  | rm8Imm8 (rm : Rm) (imm : Byte) : ShiftForm s op (op.forms.rm8Imm8 rm imm) .w8 rm imm
  | rmvImm8 (rm : Rm) (imm : Byte) : ShiftForm s op (op.forms.rmvImm8 rm imm) s.vWidth rm imm
  | rm8One (rm : Rm) : ShiftForm s op (op.forms.rm8One rm) .w8 rm 1
  | rmvOne (rm : Rm) : ShiftForm s op (op.forms.rmvOne rm) s.vWidth rm 1
  | rm8Cl (rm : Rm) : ShiftForm s op (op.forms.rm8Cl rm) .w8 rm (s.regs.read .w8 .ecx)
  | rmvCl (rm : Rm) : ShiftForm s op (op.forms.rmvCl rm) s.vWidth rm (s.regs.read .w8 .ecx)

/-- Bit `i` of the result of a shift or rotate of `a` by `c`, and for `i` = the width the carry
(43_logical_shift_rotate.md R431 to R433, R440 to R443). -/
def ShiftOp.bit {n : Nat} (op : ShiftOp) (cf : Bool) (a : BitVec n) (c i : Nat) : Bool :=
  let x := fun j => if j = n then cf else a.getLsbD j
  match op with
  | .rol => a.getLsbD ((i + n - c % n) % n)
  | .ror => if i = n then a.getLsbD ((n - 1 + c) % n) else a.getLsbD ((i + c) % n)
  | .rcl => x ((i + (n + 1) - c % (n + 1)) % (n + 1))
  | .rcr => x ((i + c) % (n + 1))
  | .shl => decide (c ≤ i) && a.getLsbD (i - c)
  | .shr => if i = n then a.getLsbD (c - 1) else a.getLsbD (i + c)
  | .sar => if i = n then (if c ≤ n then a.getLsbD (c - 1) else a.msb)
    else if i + c < n then a.getLsbD (i + c) else a.msb

/-- SHLD (`left`) and SHRD: operand, register and count byte (43_logical_shift_rotate.md R434, R435). -/
inductive DoubleForm (s : State) : Bool → Instr → Rm → Reg → Byte → Prop
  | shldImm8 (rm : Rm) (r : Reg) (imm : Byte) : DoubleForm s true (.shldImm8 rm r imm) rm r imm
  | shldCl (rm : Rm) (r : Reg) : DoubleForm s true (.shldCl rm r) rm r (s.regs.read .w8 .ecx)
  | shrdImm8 (rm : Rm) (r : Reg) (imm : Byte) : DoubleForm s false (.shrdImm8 rm r imm) rm r imm
  | shrdCl (rm : Rm) (r : Reg) : DoubleForm s false (.shrdCl rm r) rm r (s.regs.read .w8 .ecx)

/-- Bit `i` of the result of SHLD or SHRD of `a` from `b` by `c`. -/
def doubleBit {n : Nat} (left : Bool) (a b : BitVec n) (c i : Nat) : Bool :=
  if left then (if c ≤ i then a.getLsbD (i - c) else b.getLsbD (i + n - c))
  else if i + c < n then a.getLsbD (i + c) else b.getLsbD (i + c - n)

/-- What BT, BTS, BTR and BTC make of a bit. -/
inductive BitOp where
  | bt | bts | btr | btc
deriving DecidableEq, Repr

/-- Whether the unit is written (44_bit_manipulation.md R451 to R454). -/
def BitOp.writes : BitOp → Bool
  | .bt => false
  | .bts | .btr | .btc => true

/-- The new bit. -/
def BitOp.new : BitOp → Bool → Bool
  | .bt, b => b
  | .bts, _ => true
  | .btr, _ => false
  | .btc, b => !b

/-- The forms with an immediate offset. -/
inductive BitImmForm : BitOp → Instr → Rm → Byte → Prop
  | bt (rm : Rm) (imm : Byte) : BitImmForm .bt (.btRmvImm8 rm imm) rm imm
  | bts (rm : Rm) (imm : Byte) : BitImmForm .bts (.btsRmvImm8 rm imm) rm imm
  | btr (rm : Rm) (imm : Byte) : BitImmForm .btr (.btrRmvImm8 rm imm) rm imm
  | btc (rm : Rm) (imm : Byte) : BitImmForm .btc (.btcRmvImm8 rm imm) rm imm

/-- The forms with a register offset. -/
inductive BitRegForm : BitOp → Instr → Rm → Reg → Prop
  | bt (rm : Rm) (r : Reg) : BitRegForm .bt (.btRmvRv rm r) rm r
  | bts (rm : Rm) (r : Reg) : BitRegForm .bts (.btsRmvRv rm r) rm r
  | btr (rm : Rm) (r : Reg) : BitRegForm .btr (.btrRmvRv rm r) rm r
  | btc (rm : Rm) (r : Reg) : BitRegForm .btc (.btcRmvRv rm r) rm r

/-- The unit a bit offset `o` selects (44_bit_manipulation.md R450): the register, or the unit at EA moved by the
signed offset's whole units; reached with the accesses that leave `u`. -/
inductive BitPlace (s : State) (w : Width) (write : Bool) (o : BitVec w.bits) : Rm → Place → State → Prop
  | reg (r : Reg) : BitPlace s w write o (.reg r) (.reg r) s
  | mem (ea : EA) (ps : List Dword) (u : State)
      (h : segLocate (s.segFor (eaDefault ea))
        (s.asWrap (eaOffset s.regs ea + BitVec.ofInt 32 (w.bytes * (o.toInt / w.bits)))) w.bytes write s = .ok ps u) :
      BitPlace s w write o (.mem ea) (.mem ps) u

end Sys2Proof.Machine
end

