-- ==== Sys2Proof/TransferForms.lean ====
section
/-! DEFINITION. The shapes of the data transfer, string, control, system and processor instructions that claims speak
of. -/

namespace Sys2Proof.Machine

/-! Completion with more than registers and flags. -/

/-- `i` completes in `s`: it leaves the registers `g`, the flags `f`, EIP `e`, the number `v` in the bytes `ps`, and
nothing else changed but that `s'` is `s` with what else the instruction writes. -/
def Leaves (s : State) (i : Instr) (s' : State) (g : Regs) (f : Flags) (e : Dword) (ps : List Dword) (v : Nat) : Prop :=
  ∃ t, exec i s = .next t ∧ After s' t g f e ps ∧ t.mem.readAt ps = v

/-- The same for an instruction that stores nothing and goes on to the next one with RF cleared. -/
def SetsIn (s : State) (i : Instr) (s' : State) (g : Regs) (f : Flags) : Prop :=
  ∃ t, exec i s = .next t ∧ After s' t g f.settled s.nextEip []

/-- The state without the trap flag, for an end that arms no single-step trap (60_exceptions.md R682). -/
def State.noTrap (s : State) : State := { s with flags := { s.flags with tf := false } }

/-- The registers with the stack pointer moved (20_memory.md R134). -/
def State.moved (s : State) (by_ : Dword) : Regs := { s.regs with esp := s.stackSet (s.stackPtr + by_) }

/-! Moves. -/

/-- MOV to r/m: width, destination and value (40_data_transfer.md R303, R304). -/
inductive MoveForm (s : State) : Instr → (w : Width) → Rm → BitVec w.bits → Prop
  | rm8R8 (rm : Rm) (r : Reg) : MoveForm s (.movRm8R8 rm r) .w8 rm (s.regs.read .w8 r)
  | rmvRv (rm : Rm) (r : Reg) : MoveForm s (.movRmvRv rm r) s.vWidth rm (s.regs.read s.vWidth r)
  | rm8Imm8 (rm : Rm) (imm : Byte) : MoveForm s (.movRm8Imm8 rm imm) .w8 rm imm
  | rmvImmv (rm : Rm) (imm : Dword) : MoveForm s (.movRmvImmv rm imm) s.vWidth rm (imm.setWidth s.vWidth.bits)

/-- r/m to register: source width and operand, destination register and width, conversion (40_data_transfer.md R303,
R320, R321). -/
inductive LoadForm (s : State) :
    Instr → (w : Width) → Rm → Reg → (d : Width) → (BitVec w.bits → BitVec d.bits) → Prop
  | r8Rm8 (r : Reg) (rm : Rm) : LoadForm s (.movR8Rm8 r rm) .w8 rm r .w8 id
  | rvRmv (r : Reg) (rm : Rm) : LoadForm s (.movRvRmv r rm) s.vWidth rm r s.vWidth id
  | zero8 (r : Reg) (rm : Rm) : LoadForm s (.movzxRvRm8 r rm) .w8 rm r s.vWidth (·.setWidth s.vWidth.bits)
  | zero16 (r : Reg) (rm : Rm) : LoadForm s (.movzxR32Rm16 r rm) .w16 rm r s.vWidth (·.setWidth s.vWidth.bits)
  | sign8 (r : Reg) (rm : Rm) : LoadForm s (.movsxRvRm8 r rm) .w8 rm r s.vWidth (·.signExtend s.vWidth.bits)
  | sign16 (r : Reg) (rm : Rm) : LoadForm s (.movsxR32Rm16 r rm) .w16 rm r s.vWidth (·.signExtend s.vWidth.bits)

/-- The moves by direct offset: loads (`false`) and stores (40_data_transfer.md R305). -/
inductive MoffsForm (s : State) : Instr → Bool → Width → Dword → Prop
  | al (off : Dword) : MoffsForm s (.movAlMoffs8 off) false .w8 off
  | eax (off : Dword) : MoffsForm s (.movEaxMoffsv off) false s.vWidth off
  | toAl (off : Dword) : MoffsForm s (.movMoffs8Al off) true .w8 off
  | toEax (off : Dword) : MoffsForm s (.movMoffsvEax off) true s.vWidth off

/-- Instructions on registers and flags alone, with what they leave (40_data_transfer.md R304, R316, R322, R323, R330,
R340, R341, R346 to R350). -/
inductive RegisterForm (s : State) : Instr → Regs → Flags → Prop
  | movR8Imm8 (r : Reg) (imm : Byte) : RegisterForm s (.movR8Imm8 r imm) (s.regs.write .w8 r imm) s.flags
  | movRvImmv (r : Reg) (imm : Dword) :
      RegisterForm s (.movRvImmv r imm) (s.regs.write s.vWidth r (imm.setWidth s.vWidth.bits)) s.flags
  | lea (r : Reg) (ea : EA) :
      RegisterForm s (.lea r ea) (s.regs.write s.vWidth r ((eaOffset s.regs ea).setWidth s.vWidth.bits)) s.flags
  | nop : RegisterForm s .nop s.regs s.flags
  | cbw (h : s.os32 = false) :
      RegisterForm s .cbw (s.regs.write .w16 .eax ((s.regs.read .w8 .eax).signExtend 16)) s.flags
  | cwde (h : s.os32 = true) :
      RegisterForm s .cbw (s.regs.write .w32 .eax ((s.regs.read .w16 .eax).signExtend 32)) s.flags
  | cwd : RegisterForm s .cwd (s.regs.write s.vWidth .edx
      (if (s.regs.read s.vWidth .eax).toInt < 0 then BitVec.allOnes s.vWidth.bits else 0)) s.flags
  | lahf : RegisterForm s .lahf (s.regs.write .w8 regAh
      (BitVec.ofBool s.flags.sf ++ BitVec.ofBool s.flags.zf ++ 0#1 ++ BitVec.ofBool s.flags.af ++ 0#1 ++
        BitVec.ofBool s.flags.pf ++ 1#1 ++ BitVec.ofBool s.flags.cf)) s.flags
  | sahf (ah : Byte) (h : ah = s.regs.read .w8 regAh) : RegisterForm s .sahf s.regs
      { s.flags with sf := ah.getLsbD 7, zf := ah.getLsbD 6, af := ah.getLsbD 4, pf := ah.getLsbD 2, cf := ah.getLsbD 0 }
  | clc : RegisterForm s .clc s.regs { s.flags with cf := false }
  | stc : RegisterForm s .stc s.regs { s.flags with cf := true }
  | cmc : RegisterForm s .cmc s.regs { s.flags with cf := !s.flags.cf }
  | cld : RegisterForm s .cld s.regs { s.flags with df := false }
  | std : RegisterForm s .std s.regs { s.flags with df := true }

/-- XCHG: width, r/m operand and register (40_data_transfer.md R314). -/
inductive ExchangeForm (s : State) : Instr → Width → Rm → Reg → Prop
  | rm8R8 (rm : Rm) (r : Reg) : ExchangeForm s (.xchgRm8R8 rm r) .w8 rm r
  | rmvRv (rm : Rm) (r : Reg) : ExchangeForm s (.xchgRmvRv rm r) s.vWidth rm r
  | eaxRv (r : Reg) : ExchangeForm s (.xchgEaxRv r) s.vWidth (.reg r) .eax

/-- Instructions that write a 16-bit system register to r/m16: the operand, what is required of the value, and how
many free values are drawn before the operand is located (40_data_transfer.md R306, 47_protection_model.md R515, R516,
R527). -/
inductive SelectorForm (s : State) : Instr → Rm → (Word → Prop) → Nat → Prop
  | mov (rm : Rm) (sr : Sreg) : SelectorForm s (.movRm16Sreg rm sr) rm (· = (s.segs.get sr).sel) 0
  | sldt (rm : Rm) (h : s.protMode = true) : SelectorForm s (.sldt rm) rm (· = s.ldtr.sel) 0
  | str (rm : Rm) (h : s.protMode = true) : SelectorForm s (.str rm) rm (· = s.tr.sel) 0
  | smsw (rm : Rm) : SelectorForm s (.smsw rm) rm
      (fun v => v.getLsbD 0 = s.cr0.pe ∧ v.getLsbD 1 = s.cr0.mp ∧ v.getLsbD 2 = s.cr0.em ∧ v.getLsbD 3 = s.cr0.ts ∧
        v.getLsbD 4 = s.cr0.r) 1

/-! The stack. -/

/-- PUSH and PUSHF: width, the value pushed as it stands once the push is located, and the state after the operand is
located (40_data_transfer.md R308, R342). -/
inductive PushForm (s : State) : Instr → (w : Width) → (State → BitVec w.bits) → State → Prop
  | rv (r : Reg) : PushForm s (.pushRv r) s.vWidth (fun _ => s.regs.read s.vWidth r) s
  | immv (imm : Dword) : PushForm s (.pushImmv imm) s.vWidth (fun _ => imm.setWidth s.vWidth.bits) s
  | simm8 (imm : Byte) : PushForm s (.pushSimm8 imm) s.vWidth (fun _ => imm.signExtend s.vWidth.bits) s
  | rmv (rm : Rm) (p : Place) (u : State) (h : locate s.vWidth rm false s = .ok p u) :
      PushForm s (.pushRmv rm) s.vWidth (fun t => t.placeValue s.vWidth p) u
  | flags (h : s.flags.vm = false ∨ s.flags.iopl = 3) :
      PushForm s .pushf s.vWidth (fun _ => (s.flags.image &&& 0x00FCFFFF).setWidth s.vWidth.bits) s

/-- PUSH of a segment register (40_data_transfer.md R309). -/
inductive PushSregForm : Instr → Sreg → Prop
  | es : PushSregForm .pushEs .es
  | cs : PushSregForm .pushCs .cs
  | ss : PushSregForm .pushSs .ss
  | ds : PushSregForm .pushDs .ds
  | fs : PushSregForm .pushFs .fs
  | gs : PushSregForm .pushGs .gs

/-! Loads of segment registers. -/

/-- POP of a segment register (40_data_transfer.md R311). -/
inductive PopSregForm : Instr → Sreg → Prop
  | es : PopSregForm .popEs .es
  | ss : PopSregForm .popSs .ss
  | ds : PopSregForm .popDs .ds
  | fs : PopSregForm .popFs .fs
  | gs : PopSregForm .popGs .gs

/-- LDS and its kin (40_data_transfer.md R331). -/
inductive FarLoadForm (r : Reg) (ea : EA) : Instr → Sreg → Prop
  | les : FarLoadForm r ea (.les r ea) .es
  | lds : FarLoadForm r ea (.lds r ea) .ds
  | lss : FarLoadForm r ea (.lss r ea) .ss
  | lfs : FarLoadForm r ea (.lfs r ea) .fs
  | lgs : FarLoadForm r ea (.lgs r ea) .gs

/-- An instruction that loads a segment register: the selector, the state when it is loaded, the general registers
afterwards, given the segment registers afterwards, and whether interrupts then wait for one instruction: after MOV SS
and POP SS (40_data_transfer.md R307, R311, R331, 10_state.md R83). -/
inductive SregLoad (s : State) : Instr → Sreg → Word → State → (Segs → Regs) → Bool → Prop
  | mov (sr : Sreg) (rm : Rm) (p : Place) (u : State) (hc : sr ≠ .cs) (h : locate .w16 rm false s = .ok p u) :
      SregLoad s (.movSregRm16 sr rm) sr (u.placeValue .w16 p) u (fun _ => s.regs) (decide (sr = .ss))
  | pop (i : Instr) (sr : Sreg) (ps : List Dword) (u : State) (hi : PopSregForm i sr)
      (h : segLocate .ss s.stackPtr (itemBytes s.os32) false s = .ok ps u) :
      SregLoad s i sr (BitVec.ofNat 16 (u.mem.readAt ps)) u
        (fun segs => ({ s with segs := segs } : State).moved (BitVec.ofNat 32 (itemBytes s.os32))) (decide (sr = .ss))
  | far (i : Instr) (sr : Sreg) (r : Reg) (ea : EA) (sel : Word) (off : Dword) (u : State)
      (hi : FarLoadForm r ea i sr) (h : readFar ea s = .ok (sel, off) u) :
      SregLoad s i sr sel u (fun _ => s.regs.write s.vWidth r (off.setWidth s.vWidth.bits)) false

/-- A segment register as a Real Mode or Virtual 8086 Mode load leaves it (20_memory.md R121, 10_state.md R53). -/
def loaded8086 (s : State) (old : SegReg) (sel : Word) : SegReg :=
  if s.cr0.pe then
    { sel := sel, base := sel.setWidth 32 * 16, limit := 0xFFFF, valid := true, present := true, dpl := 3, code := true,
      readable := true, writable := true, expandDown := false, conforming := false, big := false }
  else { old with sel := sel, base := sel.setWidth 32 * 16, valid := true }

/-- The byte at `ps` with bits set. -/
def Memory.byteWith (m : Memory) (ps : List Dword) (bits : Byte) : Nat := (BitVec.ofNat 8 (m.readAt ps) ||| bits).toNat

/-- The A bit of a descriptor already set, or set now in its type byte: the bytes stored, their value, and the state
before the store (20_memory.md R137). -/
inductive Accessed (a : Dword) (d : Descriptor) (u : State) : List Dword → Nat → State → Prop
  | already (h : d.getLsbD 40 = true) : Accessed a d u [] 0 u
  | now (ps : List Dword) (v : State) (h : d.getLsbD 40 = false) (hl : linLocate (a + 5) 1 true true u = .ok ps v) :
      Accessed a d u ps (v.mem.byteWith ps 1) v

/-- A segment register as a load in Protected Mode fills it from a descriptor (20_memory.md R127 to R129, R135,
10_state.md R51). -/
def described (sel : Word) (d : Descriptor) : SegReg :=
  { sel := sel, base := descBase d, limit := descLimit d, valid := true, present := descP d, dpl := descDpl d,
    code := descE d, readable := !descE d || descW d, writable := !descE d && descW d,
    expandDown := !descE d && descC d, conforming := descE d && descC d, big := d.getLsbD 54 }

/-- EFLAGS as POPF and IRET load them from an image: IF and IOPL as the privilege allows, RF from a 32-bit image, VM
kept (40_data_transfer.md R345, 45_control_transfer.md R488). -/
def State.loadedFlags (s : State) (image : Dword) : Flags :=
  { Flags.ofImage image with
    ifl := if s.cr0.pe = false ∨ s.cpl.toNat ≤ s.flags.iopl.toNat then image.getLsbD 9 else s.flags.ifl
    iopl := if s.cr0.pe = false ∨ s.cpl = 0 then image.extractLsb' 12 2 else s.flags.iopl
    rf := s.os32 && image.getLsbD 16
    vm := s.flags.vm }

/-! Ports. -/

/-- IN (`true`) and OUT: width and port (40_data_transfer.md R325, R326). -/
inductive PortForm (s : State) : Instr → Bool → Width → Nat → Prop
  | inAlImm8 (port : Byte) : PortForm s (.inAlImm8 port) true .w8 port.toNat
  | inEaxImm8 (port : Byte) : PortForm s (.inEaxImm8 port) true s.vWidth port.toNat
  | inAlDx : PortForm s .inAlDx true .w8 (s.regs.read .w16 .edx).toNat
  | inEaxDx : PortForm s .inEaxDx true s.vWidth (s.regs.read .w16 .edx).toNat
  | outImm8Al (port : Byte) : PortForm s (.outImm8Al port) false .w8 port.toNat
  | outImm8Eax (port : Byte) : PortForm s (.outImm8Eax port) false s.vWidth port.toNat
  | outDxAl : PortForm s .outDxAl false .w8 (s.regs.read .w16 .edx).toNat
  | outDxEax : PortForm s .outDxEax false s.vWidth (s.regs.read .w16 .edx).toNat

/-- The bus cycles of an access to the `n` bytes of `v` from a port on, latest first: a port at which a doubleword ends
cuts it in two, of which the high-order part is made first, so that it stands last here (20_memory.md R116, R172). Of each
cycle the devices see the bytes at the ports they answer, and nothing where there is none (R175). -/
def State.portLog (s : State) (write : Bool) (port n v : Nat) : List IoCycle :=
  let cycle := fun ks : List Nat =>
    let seen := ks.filter fun k => s.portAnswers (BitVec.ofNat 32 (port + k))
    if seen = [] then [] else [IoCycle.port write (seen.map fun k => (port + k, BitVec.ofNat 8 (v / 256 ^ k)))]
  let low := 4 - port % 4
  cycle (List.range' 0 (min low n)) ++ cycle (List.range' low (n - low))

/-! Strings. -/

/-- The seven string operations. -/
inductive StringOp where
  | movs | cmps | scas | lods | stos | ins | outs
deriving DecidableEq, Repr

/-- A repetition of CMPS or SCAS also ends by ZF (42_string.md R401). -/
def StringOp.compares : StringOp → Bool
  | .cmps | .scas => true
  | .movs | .lods | .stos | .ins | .outs => false

/-- The fourteen string instructions (42_string.md R402 to R408). -/
inductive StringForm (s : State) : Instr → StringOp → Width → Prop
  | movsb : StringForm s .movsb .movs .w8
  | movsv : StringForm s .movsv .movs s.vWidth
  | cmpsb : StringForm s .cmpsb .cmps .w8
  | cmpsv : StringForm s .cmpsv .cmps s.vWidth
  | scasb : StringForm s .scasb .scas .w8
  | scasv : StringForm s .scasv .scas s.vWidth
  | lodsb : StringForm s .lodsb .lods .w8
  | lodsv : StringForm s .lodsv .lods s.vWidth
  | stosb : StringForm s .stosb .stos .w8
  | stosv : StringForm s .stosv .stos s.vWidth
  | insb : StringForm s .insb .ins .w8
  | insv : StringForm s .insv .ins s.vWidth
  | outsb : StringForm s .outsb .outs .w8
  | outsv : StringForm s .outsv .outs s.vWidth

/-- A register moved by `v` in the address size (42_string.md R400). -/
def State.bump (s : State) (g : Regs) (r : Reg) (v : Dword) : Regs :=
  if s.as32 then g.set r (g.get r + v) else g.write .w16 r (g.read .w16 r + v.setWidth 16)

/-- A string pointer moved past its element, up or down by DF (42_string.md R400). -/
def State.past (s : State) (w : Width) (g : Regs) (r : Reg) : Regs :=
  s.bump g r (if s.flags.df then -(BitVec.ofNat 32 w.bytes) else BitVec.ofNat 32 w.bytes)

/-- One element of a string operation begun in `s`: the registers and flags after it, what else it writes, the bytes
stored and their value (42_string.md R402 to R408). -/
inductive Element (s : State) (w : Width) : StringOp → Regs → Flags → State → List Dword → Nat → Prop
  | movs (src dst : List Dword) (u v : State)
      (h1 : segLocate (s.segFor .ds) (s.asReg .esi) w.bytes false s = .ok src u)
      (h2 : segLocate .es (s.asReg .edi) w.bytes true u = .ok dst v) :
      Element s w .movs (s.past w (s.past w s.regs .esi) .edi) s.flags s dst (v.mem.readAt src)
  | cmps (src dst : List Dword) (u v : State)
      (h1 : segLocate (s.segFor .ds) (s.asReg .esi) w.bytes false s = .ok src u)
      (h2 : segLocate .es (s.asReg .edi) w.bytes false u = .ok dst v) :
      Element s w .cmps (s.past w (s.past w s.regs .esi) .edi)
        (s.flags.subtracting (BitVec.ofNat w.bits (v.mem.readAt src)) (BitVec.ofNat w.bits (v.mem.readAt dst)) false)
        s [] 0
  | scas (dst : List Dword) (u : State) (h : segLocate .es (s.asReg .edi) w.bytes false s = .ok dst u) :
      Element s w .scas (s.past w s.regs .edi)
        (s.flags.subtracting (s.regs.read w .eax) (BitVec.ofNat w.bits (u.mem.readAt dst)) false) s [] 0
  | lods (src : List Dword) (u : State)
      (h : segLocate (s.segFor .ds) (s.asReg .esi) w.bytes false s = .ok src u) :
      Element s w .lods (s.past w (s.regs.write w .eax (BitVec.ofNat w.bits (u.mem.readAt src))) .esi) s.flags s [] 0
  | stos (dst : List Dword) (u : State) (h : segLocate .es (s.asReg .edi) w.bytes true s = .ok dst u) :
      Element s w .stos (s.past w s.regs .edi) s.flags s dst (s.regs.read w .eax).toNat
  | ins (port : Nat) (dst : List Dword) (u v v' : State) (x : BitVec w.bits)
      (hp : port = (s.regs.read .w16 .edx).toNat) (h1 : ioPermitted port w.bytes s = .ok () u)
      (h2 : segLocate .es (s.asReg .edi) w.bytes true u = .ok dst v)
      (h3 : ioRead port w v = .ok x v') :
      Element s w .ins (s.past w s.regs .edi) s.flags
        { s with ioLog := s.portLog false port w.bytes x.toNat ++ s.ioLog } dst x.toNat
  | outs (port : Nat) (src : List Dword) (u v : State)
      (hp : port = (s.regs.read .w16 .edx).toNat) (h1 : ioPermitted port w.bytes s = .ok () u)
      (h2 : segLocate (s.segFor .ds) (s.asReg .esi) w.bytes false u = .ok src v) :
      Element s w .outs (s.past w s.regs .esi) s.flags
        { s with ioLog := s.portLog true port w.bytes (v.mem.readAt src) ++ s.ioLog } [] 0

/-! Conditions and near transfers. -/

/-- Jcc rel8 and relv with their conditions (45_control_transfer.md R463, R464). -/
inductive CondJump : Instr → Cond → Dword → Prop
  | o8 (r : Byte) : CondJump (.joRel8 r) .o (r.signExtend 32)
  | no8 (r : Byte) : CondJump (.jnoRel8 r) .no (r.signExtend 32)
  | b8 (r : Byte) : CondJump (.jbRel8 r) .b (r.signExtend 32)
  | ae8 (r : Byte) : CondJump (.jaeRel8 r) .ae (r.signExtend 32)
  | e8 (r : Byte) : CondJump (.jeRel8 r) .e (r.signExtend 32)
  | ne8 (r : Byte) : CondJump (.jneRel8 r) .ne (r.signExtend 32)
  | be8 (r : Byte) : CondJump (.jbeRel8 r) .be (r.signExtend 32)
  | a8 (r : Byte) : CondJump (.jaRel8 r) .a (r.signExtend 32)
  | s8 (r : Byte) : CondJump (.jsRel8 r) .s (r.signExtend 32)
  | ns8 (r : Byte) : CondJump (.jnsRel8 r) .ns (r.signExtend 32)
  | p8 (r : Byte) : CondJump (.jpRel8 r) .p (r.signExtend 32)
  | np8 (r : Byte) : CondJump (.jnpRel8 r) .np (r.signExtend 32)
  | l8 (r : Byte) : CondJump (.jlRel8 r) .l (r.signExtend 32)
  | ge8 (r : Byte) : CondJump (.jgeRel8 r) .ge (r.signExtend 32)
  | le8 (r : Byte) : CondJump (.jleRel8 r) .le (r.signExtend 32)
  | g8 (r : Byte) : CondJump (.jgRel8 r) .g (r.signExtend 32)
  | ov (r : Dword) : CondJump (.joRelv r) .o r
  | nov (r : Dword) : CondJump (.jnoRelv r) .no r
  | bv (r : Dword) : CondJump (.jbRelv r) .b r
  | aev (r : Dword) : CondJump (.jaeRelv r) .ae r
  | ev (r : Dword) : CondJump (.jeRelv r) .e r
  | nev (r : Dword) : CondJump (.jneRelv r) .ne r
  | bev (r : Dword) : CondJump (.jbeRelv r) .be r
  | av (r : Dword) : CondJump (.jaRelv r) .a r
  | sv (r : Dword) : CondJump (.jsRelv r) .s r
  | nsv (r : Dword) : CondJump (.jnsRelv r) .ns r
  | pv (r : Dword) : CondJump (.jpRelv r) .p r
  | npv (r : Dword) : CondJump (.jnpRelv r) .np r
  | lv (r : Dword) : CondJump (.jlRelv r) .l r
  | gev (r : Dword) : CondJump (.jgeRelv r) .ge r
  | lev (r : Dword) : CondJump (.jleRelv r) .le r
  | gv (r : Dword) : CondJump (.jgRelv r) .g r

/-- SETcc with its condition (45_control_transfer.md R462). -/
inductive CondSet (rm : Rm) : Instr → Cond → Prop
  | o : CondSet rm (.seto rm) .o
  | no : CondSet rm (.setno rm) .no
  | b : CondSet rm (.setb rm) .b
  | ae : CondSet rm (.setae rm) .ae
  | e : CondSet rm (.sete rm) .e
  | ne : CondSet rm (.setne rm) .ne
  | be : CondSet rm (.setbe rm) .be
  | a : CondSet rm (.seta rm) .a
  | s : CondSet rm (.sets rm) .s
  | ns : CondSet rm (.setns rm) .ns
  | p : CondSet rm (.setp rm) .p
  | np : CondSet rm (.setnp rm) .np
  | l : CondSet rm (.setl rm) .l
  | ge : CondSet rm (.setge rm) .ge
  | le : CondSet rm (.setle rm) .le
  | g : CondSet rm (.setg rm) .g

/-- The registers with the count (E)CX one lower, by the address size (45_control_transfer.md R470). -/
def State.counted (s : State) : Regs := s.bump s.regs .ecx (-1)

/-- The count (E)CX of a register state, by the address size. -/
def State.countOf (s : State) (g : Regs) : Nat := if s.as32 then g.ecx.toNat else (g.read .w16 .ecx).toNat

/-- Relative branches: whether taken, the displacement, and the registers left (45_control_transfer.md R463 to R473). -/
inductive BranchForm (s : State) : Instr → Bool → Dword → Regs → Prop
  | cond (i : Instr) (c : Cond) (rel : Dword) (h : CondJump i c rel) : BranchForm s i (s.flags.holds c) rel s.regs
  | jmp8 (r : Byte) : BranchForm s (.jmpRel8 r) true (r.signExtend 32) s.regs
  | jmpv (r : Dword) : BranchForm s (.jmpRelv r) true r s.regs
  | loop (r : Byte) : BranchForm s (.loop r) (decide (s.countOf s.counted ≠ 0)) (r.signExtend 32) s.counted
  | loope (r : Byte) :
      BranchForm s (.loope r) (decide (s.countOf s.counted ≠ 0) && s.flags.zf) (r.signExtend 32) s.counted
  | loopne (r : Byte) :
      BranchForm s (.loopne r) (decide (s.countOf s.counted ≠ 0) && !s.flags.zf) (r.signExtend 32) s.counted
  | jcxz (r : Byte) : BranchForm s (.jcxz r) (decide (s.countOf s.regs = 0)) (r.signExtend 32) s.regs

/-- Near CALL: target and the state when it is known (45_control_transfer.md R467, R468). -/
inductive CallForm (s : State) : Instr → Dword → State → Prop
  | rel (r : Dword) : CallForm s (.callRelv r) ((s.nextEip + r).setWidth s.vWidth.bits |>.setWidth 32) s
  | rm (rm : Rm) (p : Place) (u : State) (h : locate s.vWidth rm false s = .ok p u) :
      CallForm s (.callRmv rm) ((u.placeValue s.vWidth p).setWidth 32) u

/-- Near RET and how many bytes more it releases (45_control_transfer.md R469). -/
inductive RetForm : Instr → Word → Prop
  | plain : RetForm .retNear 0
  | imm (n : Word) : RetForm (.retNearImm16 n) n

/-! Far transfers. -/

/-- JMP and CALL far: selector and offset, and the state when they are known (45_control_transfer.md R477, R478). -/
inductive FarForm (s : State) : FarKind → Instr → Word → Dword → State → Prop
  | jmp (off : Dword) (sel : Word) : FarForm s .jmp (.jmpPtr off sel) sel (off.setWidth s.vWidth.bits |>.setWidth 32) s
  | call (off : Dword) (sel : Word) :
      FarForm s .call (.callPtr off sel) sel (off.setWidth s.vWidth.bits |>.setWidth 32) s
  | jmpM (ea : EA) (sel : Word) (off : Dword) (u : State) (h : readFar ea s = .ok (sel, off) u) :
      FarForm s .jmp (.jmpM ea) sel off u
  | callM (ea : EA) (sel : Word) (off : Dword) (u : State) (h : readFar ea s = .ok (sel, off) u) :
      FarForm s .call (.callM ea) sel off u

/-- Far RET and how many bytes more it releases (45_control_transfer.md R479). -/
inductive FarRetForm : Instr → Word → Prop
  | plain : FarRetForm .retFar 0
  | imm (n : Word) : FarRetForm (.retFarImm16 n) n

/-! Far transfers in Protected Mode. -/

/-- What a far JMP or CALL `i` from `s` to the code segment `d` of `sel` at the same level does, in the state `w` in
which `d` is found (45_control_transfer.md R481, R483): #GP(0) for an offset beyond the limit, the return address pushed
by CALL in two items of `n` bytes, then the A bit, CS with the CPL as its RPL. The upper half of a pushed selector is
any value (93_implementation_defined.md U24). -/
def EntersSameLevel (s w : State) (kind : FarKind) (i : Instr) (n : Nat) (sel : Word) (a : Dword) (d : Descriptor)
    (off : Dword) : Prop :=
  let s' := { s with segs := { s.segs with cs := described (sel &&& 0xFFFC ||| s.cpl.setWidth 16) d } }
  (kind = .jmp → descLimit d < off → exec i s = takeExn s w (.gp 0)) ∧
  (kind = .jmp → off ≤ descLimit d → ∀ ps x t, Accessed a d w ps x t →
    Leaves s i s' s.regs s.flags.settled off ps x) ∧
  (kind = .call → off ≤ descLimit d → ∀ p1 p2 ps x v t, locatePushes n 2 1 w = .ok [p1, p2] v →
    Accessed a d v ps x t →
    ∃ r hi, (n = 2 → hi = 0) ∧ hi < 65536 ∧ exec i s = .next r ∧
      After s' r (s.moved (-(BitVec.ofNat 32 (2 * n)))) s.flags.settled off (ps ++ p1 ++ p2) ∧
      let m := (t.mem.writeAt p1 (hi * 65536 + s.segs.cs.sel.toNat)).writeAt p2 s.nextEip.toNat
      r.mem = m.writeAt ps (m.byteWith ps 1))

/-- What a far RET or an IRET `i` in `s` does once it has `sel` and `off` from the stack and the state is `v`, up to a
return to the same level (45_control_transfer.md R486): `release` bytes leave the stack, the flags become `f`, and `nmi`
says whether NMI is in service afterwards. -/
def ReturnsSameLevel (s v : State) (i : Instr) (sel : Word) (off : Dword) (release : Nat) (f : Flags) (nmi : Bool) :
    Prop :=
  let rpl := sel.extractLsb' 0 2
  let code : Word := sel &&& 0xFFFC
  (sel.toNat < 4 → exec i s = takeExn s v (.gp 0)) ∧
  (4 ≤ sel.toNat → ∀ a d w, findDesc sel .gp v = .ok (a, d) w →
    let allowed := descS d = true ∧ descE d = true ∧ s.cpl.toNat ≤ rpl.toNat ∧
      if descC d then (descDpl d).toNat ≤ rpl.toNat else descDpl d = rpl
    (¬ allowed → exec i s = takeExn s w (.gp code)) ∧
    (allowed → descP d = false → exec i s = takeExn s w (.np code)) ∧
    (allowed → descP d = true → rpl = s.cpl → descLimit d < off → exec i s = takeExn s w (.gp 0)) ∧
    (allowed → descP d = true → rpl = s.cpl → off ≤ descLimit d → ∀ ps x t, Accessed a d w ps x t →
      Leaves s i { s with segs := { s.segs with cs := described (code ||| s.cpl.setWidth 16) d }, nmiInService := nmi }
        (s.moved (BitVec.ofNat 32 release)) f off ps x))

/-! Interrupts in Real Mode. -/

/-- Real Mode, with paging off. -/
def State.inReal (s : State) : Prop := s.cr0.pe = false ∧ s.cr0.pg = false ∧ s.flags.vm = false

/-- The entry of vector `n` lies in the table, and the stack takes the three words (60_exceptions.md R610). -/
def State.canEnter (s : State) (n : Nat) : Prop := 4 * n + 3 ≤ s.idtr.limit.toNat ∧ s.roomFault 2 3 = none

/-- The physical bytes of the `k`-th word pushed in Real Mode. -/
def State.realItem (s : State) (k : Nat) : List Dword :=
  addrRun (s.segs.ss.base + s.stackWrap (s.stackPtr - BitVec.ofNat 32 (2 * k))) 2

/-- The word at an offset in the interrupt table, paging off. -/
def State.idtWord (s : State) (k : Nat) : Word :=
  BitVec.ofNat 16 (s.mem.readAt (addrRun (s.idtr.base + BitVec.ofNat 32 k) 2))

/-- The state with CS as a Real Mode load of a selector leaves it. -/
def State.inRealCS (s : State) (sel : Word) : State :=
  { s with segs := { s.segs with cs := loaded8086 s s.segs.cs sel } }

/-- The error code an exception pushes in Protected Mode (60_exceptions.md R602, R603): of a page fault's the bits
U/S, W/R and P are defined and `open_` is the rest (R617, 93_implementation_defined.md U6). -/
def Exn.code (e : Exn) (open_ : BitVec 13) : Option Word :=
  match e with
  | .df => some 0
  | .ts c | .np c | .ss c | .gp c => some c
  | .pf _ p w u => some (open_ ++ BitVec.ofBool u ++ BitVec.ofBool w ++ BitVec.ofBool p)
  | _ => none

/-- Whether an exception is a page fault. -/
def Exn.isPage : Exn → Bool
  | .pf _ _ _ _ => true
  | _ => false

/-- What the entry of vector `n` leaves of a machine in Real Mode: FLAGS, CS and IP `ret` pushed, IF, TF and RF clear,
CS:EIP from the table (60_exceptions.md R610), and nothing else changed. -/
structure RealEntry (s : State) (n : Nat) (ret : Dword) (t : State) : Prop where
  after : After (s.inRealCS (s.idtWord (4 * n + 2))).noTrap t (s.moved (-6))
    { s.flags with ifl := false, tf := false, rf := false } ((s.idtWord (4 * n)).setWidth 32)
    (s.realItem 1 ++ s.realItem 2 ++ s.realItem 3)
  flags : t.mem.readAt (s.realItem 1) = s.flags.image.toNat % 65536
  cs : t.mem.readAt (s.realItem 2) = s.segs.cs.sel.toNat
  ip : t.mem.readAt (s.realItem 3) = ret.toNat % 65536

/-- The software interrupts: vector (45_control_transfer.md R490 to R492). -/
inductive InterruptForm (s : State) : Instr → Nat → Prop
  | int3 : InterruptForm s .int3 3
  | int (n : Byte) : InterruptForm s (.intImm8 n) n.toNat
  | into (h : s.flags.of = true) : InterruptForm s .into 4

/-! Gates. -/

/-- An Intel386 DX interrupt or trap gate `g` of vector `n`, read in `s`, that leads to the present code segment `d` at
the level of `s`: the table, the gate and the segment pass the tests of 60_exceptions.md R640 that a processor exception
meets, and `v` is the state when they are read. -/
structure GateFound (s : State) (n : Nat) (g : Descriptor) (a : Dword) (d : Descriptor) (v : State) : Prop where
  inTable : 8 * n + 7 ≤ s.idtr.limit.toNat
  read : ∃ x u, sysRead (s.idtr.base + BitVec.ofNat 32 (8 * n)) 8 s = .ok x u ∧ g = BitVec.ofNat 64 x ∧
    findDesc (g.extractLsb' 16 16) .gp u = .ok (a, d) v
  kind : g.extractLsb' 41 4 = 7
  gatePresent : g.getLsbD 47 = true
  notNull : 4 ≤ (g.extractLsb' 16 16).toNat
  isCode : descS d = true ∧ descE d = true
  present : descP d = true
  sameLevel : descC d = true ∧ (descDpl d).toNat ≤ s.cpl.toNat ∨ descC d = false ∧ descDpl d = s.cpl
  inside : (g.extractLsb' 48 16 ++ g.extractLsb' 0 16 : Dword) ≤ descLimit d

/-- What the entry through such a gate leaves in `t` (60_exceptions.md R640, R643): the A bit stored as `x` at `ps` in
the memory `m`, then EFLAGS with the given RF, CS, the return address and the error code at `frame`, the upper halves of
selector and code any values (93_implementation_defined.md U24, U6); TF, NT, RF and VM clear, IF cleared by an interrupt
gate, CS:EIP from the gate, and nothing else changed. -/
structure GateEntry (s : State) (g d : Descriptor) (m : Memory) (ps : List Dword) (x : Nat) (frame : List (List Dword))
    (rf : Bool) (ret : Dword) (code : Option Word) (t : State) : Prop where
  after : After
    ({ s with segs := { s.segs with
        cs := described (g.extractLsb' 16 16 &&& 0xFFFC ||| s.cpl.setWidth 16) d } } : State).noTrap t
    (s.moved (-(BitVec.ofNat 32 (4 * frame.length))))
    { s.flags with tf := false, nt := false, rf := false, vm := false, ifl := s.flags.ifl && g.getLsbD 40 }
    (g.extractLsb' 48 16 ++ g.extractLsb' 0 16) (ps ++ frame.flatten)
  pushed : ∃ hc he, hc < 65536 ∧ he < 65536 ∧
    t.mem = (frame.zip ([({ s.flags with rf := rf } : Flags).image.toNat, hc * 65536 + s.segs.cs.sel.toNat, ret.toNat] ++
      code.toList.map fun c => he * 65536 + c.toNat)).foldl (fun m y => m.writeAt y.1 y.2) (m.writeAt ps x)

/-! System instructions. -/

/-- The instructions that need CPL 0 in Protected Mode (47_protection_model.md R510). -/
inductive Privileged : Instr → Prop
  | lgdt (ea : EA) : Privileged (.lgdt ea)
  | lidt (ea : EA) : Privileged (.lidt ea)
  | lmsw (rm : Rm) : Privileged (.lmsw rm)
  | clts : Privileged .clts
  | hlt : Privileged .hlt
  | fromCr (r : Reg) (n : BitVec 3) : Privileged (.movR32Cr r n)
  | toCr (n : BitVec 3) (r : Reg) : Privileged (.movCrR32 n r)
  | fromDr (r : Reg) (n : BitVec 3) : Privileged (.movR32Dr r n)
  | toDr (n : BitVec 3) (r : Reg) : Privileged (.movDrR32 n r)
  | fromTr (r : Reg) (n : BitVec 3) : Privileged (.movR32Tr r n)
  | toTr (n : BitVec 3) (r : Reg) : Privileged (.movTrR32 n r)

/-- The instructions recognised only in Protected Mode without VM (30_encoding.md R247). -/
inductive ProtectedOnly : Instr → Prop
  | arpl (rm : Rm) (r : Reg) : ProtectedOnly (.arpl rm r)
  | sldt (rm : Rm) : ProtectedOnly (.sldt rm)
  | str (rm : Rm) : ProtectedOnly (.str rm)
  | lldt (rm : Rm) : ProtectedOnly (.lldt rm)
  | ltr (rm : Rm) : ProtectedOnly (.ltr rm)
  | verr (rm : Rm) : ProtectedOnly (.verr rm)
  | verw (rm : Rm) : ProtectedOnly (.verw rm)
  | lar (r : Reg) (rm : Rm) : ProtectedOnly (.lar r rm)
  | lsl (r : Reg) (rm : Rm) : ProtectedOnly (.lsl r rm)

/-- A read or a write of a control, debug or test register is allowed: CPL 0 or Real Mode. -/
def State.mayRun (s : State) : Prop := s.cr0.pe = false ∨ s.cpl = 0

/-- A word that agrees with `v` in the bits of `mask`; its other bits are undefined (10_state.md R79). -/
def Shows (x v mask : Dword) : Prop := x &&& mask = v &&& mask

/-- Reads of control, debug and test registers: destination, contents, and defined bits (47_protection_model.md R530,
R532, R534, 10_state.md R55, R64, R65, R70 to R76). -/
inductive SpecialRead (s : State) : Instr → Reg → Dword → Dword → Prop
  | cr0 (r : Reg) : SpecialRead s (.movR32Cr r 0) r s.cr0.word 0x8000001F
  | cr2 (r : Reg) : SpecialRead s (.movR32Cr r 2) r s.cr2 0xFFFFFFFF
  | cr3 (r : Reg) : SpecialRead s (.movR32Cr r 3) r (s.cr3 ++ 0#12) 0xFFFFF000
  | dr0 (r : Reg) (h : s.dr7.getLsbD 13 = false) : SpecialRead s (.movR32Dr r 0) r s.dr.dr0 0xFFFFFFFF
  | dr1 (r : Reg) (h : s.dr7.getLsbD 13 = false) : SpecialRead s (.movR32Dr r 1) r s.dr.dr1 0xFFFFFFFF
  | dr2 (r : Reg) (h : s.dr7.getLsbD 13 = false) : SpecialRead s (.movR32Dr r 2) r s.dr.dr2 0xFFFFFFFF
  | dr3 (r : Reg) (h : s.dr7.getLsbD 13 = false) : SpecialRead s (.movR32Dr r 3) r s.dr.dr3 0xFFFFFFFF
  | dr6 (r : Reg) (h : s.dr7.getLsbD 13 = false) : SpecialRead s (.movR32Dr r 6) r s.dr6.word 0x0000E00F
  | dr7 (r : Reg) (h : s.dr7.getLsbD 13 = false) : SpecialRead s (.movR32Dr r 7) r s.dr7 0xFFFF23FF
  | tr6 (r : Reg) : SpecialRead s (.movR32Tr r 6) r s.tr6 0xFFFFFFE1
  | tr7 (r : Reg) : SpecialRead s (.movR32Tr r 7) r s.tr7 0xFFFFF01C

/-- Writes of control, debug and test registers, but for the TLB commands of TR6: the register named, and the state
with the value `v` written (47_protection_model.md R531, R533, R535). -/
inductive SpecialWrite (s : State) (v : Dword) (r : Reg) : Instr → State → Prop
  | cr0 (h : v.getLsbD 31 = false ∨ v.getLsbD 0 = true) : SpecialWrite s v r (.movCrR32 0 r)
      { s with cr0 := { pg := v.getLsbD 31, r := v.getLsbD 4, ts := v.getLsbD 3, em := v.getLsbD 2,
                        mp := v.getLsbD 1, pe := v.getLsbD 0 } }
  | cr2 : SpecialWrite s v r (.movCrR32 2 r) { s with cr2 := v }
  | cr3 : SpecialWrite s v r (.movCrR32 3 r)
      { s with cr3 := v.extractLsb' 12 20, tlb := List.replicate 32 none }
  | dr0 (h : s.dr7.getLsbD 13 = false) : SpecialWrite s v r (.movDrR32 0 r) { s with dr := { s.dr with dr0 := v } }
  | dr1 (h : s.dr7.getLsbD 13 = false) : SpecialWrite s v r (.movDrR32 1 r) { s with dr := { s.dr with dr1 := v } }
  | dr2 (h : s.dr7.getLsbD 13 = false) : SpecialWrite s v r (.movDrR32 2 r) { s with dr := { s.dr with dr2 := v } }
  | dr3 (h : s.dr7.getLsbD 13 = false) : SpecialWrite s v r (.movDrR32 3 r) { s with dr := { s.dr with dr3 := v } }
  | dr6 (h : s.dr7.getLsbD 13 = false) : SpecialWrite s v r (.movDrR32 6 r)
      { s with dr6 := { b := v.extractLsb' 0 4, bd := v.getLsbD 13, bs := v.getLsbD 14, bt := v.getLsbD 15 } }
  | dr7 (h : s.dr7.getLsbD 13 = false) : SpecialWrite s v r (.movDrR32 7 r) { s with dr7 := v &&& 0xFFFF23FF }
  | tr7 : SpecialWrite s v r (.movTrR32 7 r) { s with tr7 := v &&& 0xFFFFF01C }

/-! Task switches, with paging off. -/

/-- Where slot `i` of a TSS lies (60_exceptions.md R671): EIP, EFLAGS, the eight general registers, then ES, CS, SS, DS
and for an Intel386 DX TSS FS, GS, then LDT. -/
def tssSlot (is386 : Bool) (base : Dword) (i n : Nat) : List Dword :=
  addrRun (base + BitVec.ofNat 32 (if is386 then 0x20 + 4 * i else 0x0E + 2 * i)) n

/-- The values that a switch saves of `s` with the EFLAGS image `f`: whole, or the low halves for an 80286 TSS; the
upper halves of the selectors are any values (60_exceptions.md R670, R671, 93_implementation_defined.md U24). -/
def State.savedFor (s : State) (f : Dword) (any : Nat → Word) : List Nat :=
  let plain := [s.eip, f, s.regs.eax, s.regs.ecx, s.regs.edx, s.regs.ebx, s.regs.esp, s.regs.ebp, s.regs.esi, s.regs.edi]
  let sels := [s.segs.es.sel, s.segs.cs.sel, s.segs.ss.sel, s.segs.ds.sel]
  if s.tr.is386 then plain.map BitVec.toNat ++
      (sels ++ [s.segs.fs.sel, s.segs.gs.sel]).zipIdx.map fun x => (any x.2).toNat * 65536 + x.1.toNat
  else plain.map (fun x => x.toNat % 65536) ++ sels.map BitVec.toNat

/-- Memory at the commit point of a switch from `s` to the TSS `d` of `sel` (60_exceptions.md R670, R672): the old TSS
saved, its busy bit cleared by JMP and IRET, the back link written by CALL and INT, the busy bit of the new TSS set but
by IRET. -/
def State.switchedMem (s : State) (sel : Word) (d : Descriptor) (kind : SwitchKind) (any : Nat → Word) : Memory :=
  let f := ({ s.flags with nt := s.flags.nt && decide (kind ≠ .iret) } : Flags).image
  let typeAt := fun x : Word => (s.gdtr.base + (x &&& 0xFFF8).setWidth 32 + 5).toNat
  let saved := (s.savedFor f any).zipIdx.foldl
    (fun m x => m.writeAt (tssSlot s.tr.is386 s.tr.base x.2 (if s.tr.is386 then 4 else 2)) x.1) s.mem
  let left := if kind = .call ∨ kind = .int then saved.writeAt (addrRun (descBase d) 2) s.tr.sel.toNat
    else saved.write (typeAt s.tr.sel) (saved.read (typeAt s.tr.sel) &&& 0xFD)
  if kind = .iret then left else left.write (typeAt sel) (left.read (typeAt sel) ||| 2)

/-- Where the type byte of the descriptor of `sel` lies, which holds its A bit: in the GDT or the LDT (20_memory.md R126,
R137). -/
def State.typeByte (s : State) (sel : Word) : Dword :=
  (if sel.getLsbD 2 then s.ldtr.base else s.gdtr.base) + (sel &&& 0xFFF8).setWidth 32 + 5

/-- What `t` has from the incoming TSS `d`, read in the memory `m` (60_exceptions.md R670 phase 3): all of EIP, EFLAGS
with NT set by CALL and INT, general registers, selectors and LDT; CR3 from an Intel386 DX TSS only. From an 80286 TSS
the upper halves of the general registers are any values (93_implementation_defined.md U5), FS and GS are null. Memory is
`m` but for accessed bits, which only a task outside Virtual 8086 Mode sets, in the descriptors its segment registers
name (20_memory.md R137, 60_exceptions.md R674). -/
structure LoadedFrom (s t : State) (d : Descriptor) (kind : SwitchKind) (m : Memory) (is386 : Bool) : Prop where
  eip : t.eip = BitVec.ofNat 32 (m.readAt (tssSlot is386 (descBase d) 0 (if is386 then 4 else 2)))
  flags : let f := Flags.ofImage (BitVec.ofNat 32 (m.readAt (tssSlot is386 (descBase d) 1 (if is386 then 4 else 2))))
    t.flags = { f with nt := f.nt || decide (kind = .call ∨ kind = .int) }
  regs : ∀ x ∈ [(Reg.eax, 2), (.ecx, 3), (.edx, 4), (.ebx, 5), (.esp, 6), (.ebp, 7), (.esi, 8), (.edi, 9)],
    if is386 then t.regs.get x.1 = BitVec.ofNat 32 (m.readAt (tssSlot true (descBase d) x.2 4))
    else t.regs.read .w16 x.1 = BitVec.ofNat 16 (m.readAt (tssSlot false (descBase d) x.2 2))
  sels : ∀ x ∈ [(Sreg.es, 10), (.cs, 11), (.ss, 12), (.ds, 13)],
    (t.segs.get x.1).sel = BitVec.ofNat 16 (m.readAt (tssSlot is386 (descBase d) x.2 2))
  more : ∀ x ∈ [(Sreg.fs, 14), (.gs, 15)],
    (t.segs.get x.1).sel = if is386 then BitVec.ofNat 16 (m.readAt (tssSlot true (descBase d) x.2 2)) else 0
  ldt : t.ldtr.sel = BitVec.ofNat 16 (m.readAt (tssSlot is386 (descBase d) (if is386 then 16 else 14) 2))
  cr3 : t.cr3 = if is386 then (BitVec.ofNat 32 (m.readAt (addrRun (descBase d + 0x1C) 4))).extractLsb' 12 20 else s.cr3
  mem : ∀ b : Dword, t.mem.read b.toNat = m.read b.toNat ∨
    (t.flags.vm = false ∧ (∃ x ∈ [Sreg.cs, .ss, .ds, .es, .fs, .gs], b = t.typeByte (t.segs.get x).sel) ∧
      t.mem.read b.toNat = m.read b.toNat ||| 1)

/-! Prefixes. -/

/-- What each prefix byte records of the instruction that follows (30_encoding.md R203 to R207). -/
inductive PrefixForm (d : InProgress) : Instr → InProgress → Prop
  | es : PrefixForm d .segEs { d with seg := some .es }
  | cs : PrefixForm d .segCs { d with seg := some .cs }
  | ss : PrefixForm d .segSs { d with seg := some .ss }
  | ds : PrefixForm d .segDs { d with seg := some .ds }
  | fs : PrefixForm d .segFs { d with seg := some .fs }
  | gs : PrefixForm d .segGs { d with seg := some .gs }
  | opSize : PrefixForm d .opSize { d with opSize := true }
  | addrSize : PrefixForm d .addrSize { d with addrSize := true }
  | lock : PrefixForm d .lockPrefix { d with lock := true }
  | repne : PrefixForm d .repne { d with rep := some .repne }
  | rep : PrefixForm d .rep { d with rep := some .repe }

end Sys2Proof.Machine
end

