-- ==== Sys2Proof/WellFormed.lean ====
section
/-! DEFINITION. Which instruction terms the encodings admit, under an operand size and an address size
(30_encoding.md R206, R207). -/

namespace Sys2Proof

/-- A value of `v` width: the upper half is zero under a 16-bit size (30_encoding.md R217, R218). -/
def fitsSize (size32 : Bool) (v : Dword) : Bool := size32 || decide (v.toNat < 65536)

/-- A memory operand fits the address size, and ESP is no index (30_encoding.md R212 to R214). -/
def EA.wf (as32 : Bool) : EA → Bool
  | .mem16 _ _ => !as32
  | .mem32 _ none _ => as32
  | .mem32 _ (some (i, _)) _ => as32 && decide (i ≠ .esp)

/-- An r/m operand fits the address size. -/
def Rm.wf (as32 : Bool) : Rm → Bool
  | .reg _ => true
  | .mem ea => ea.wf as32

/-- An instruction some encoding stands for under operand size `os32` and address size `as32`: memory forms of the
address size, immediates of the operand size, no MOV to CS (30_encoding.md R210, R245), and XCHG eAX, eAX only as NOP
(R230). -/
def Instr.wf (os32 as32 : Bool) : Instr → Bool
  | .addRm8R8 rm _ => rm.wf as32
  | .addRmvRv rm _ => rm.wf as32
  | .addR8Rm8 _ rm => rm.wf as32
  | .addRvRmv _ rm => rm.wf as32
  | .addAlImm8 _ => true
  | .addEaxImmv imm => fitsSize os32 imm
  | .addRm8Imm8 rm _ => rm.wf as32
  | .addRmvImmv rm imm => rm.wf as32 && fitsSize os32 imm
  | .addRmvSimm8 rm _ => rm.wf as32
  | .orRm8R8 rm _ => rm.wf as32
  | .orRmvRv rm _ => rm.wf as32
  | .orR8Rm8 _ rm => rm.wf as32
  | .orRvRmv _ rm => rm.wf as32
  | .orAlImm8 _ => true
  | .orEaxImmv imm => fitsSize os32 imm
  | .orRm8Imm8 rm _ => rm.wf as32
  | .orRmvImmv rm imm => rm.wf as32 && fitsSize os32 imm
  | .orRmvSimm8 rm _ => rm.wf as32
  | .adcRm8R8 rm _ => rm.wf as32
  | .adcRmvRv rm _ => rm.wf as32
  | .adcR8Rm8 _ rm => rm.wf as32
  | .adcRvRmv _ rm => rm.wf as32
  | .adcAlImm8 _ => true
  | .adcEaxImmv imm => fitsSize os32 imm
  | .adcRm8Imm8 rm _ => rm.wf as32
  | .adcRmvImmv rm imm => rm.wf as32 && fitsSize os32 imm
  | .adcRmvSimm8 rm _ => rm.wf as32
  | .sbbRm8R8 rm _ => rm.wf as32
  | .sbbRmvRv rm _ => rm.wf as32
  | .sbbR8Rm8 _ rm => rm.wf as32
  | .sbbRvRmv _ rm => rm.wf as32
  | .sbbAlImm8 _ => true
  | .sbbEaxImmv imm => fitsSize os32 imm
  | .sbbRm8Imm8 rm _ => rm.wf as32
  | .sbbRmvImmv rm imm => rm.wf as32 && fitsSize os32 imm
  | .sbbRmvSimm8 rm _ => rm.wf as32
  | .andRm8R8 rm _ => rm.wf as32
  | .andRmvRv rm _ => rm.wf as32
  | .andR8Rm8 _ rm => rm.wf as32
  | .andRvRmv _ rm => rm.wf as32
  | .andAlImm8 _ => true
  | .andEaxImmv imm => fitsSize os32 imm
  | .andRm8Imm8 rm _ => rm.wf as32
  | .andRmvImmv rm imm => rm.wf as32 && fitsSize os32 imm
  | .andRmvSimm8 rm _ => rm.wf as32
  | .subRm8R8 rm _ => rm.wf as32
  | .subRmvRv rm _ => rm.wf as32
  | .subR8Rm8 _ rm => rm.wf as32
  | .subRvRmv _ rm => rm.wf as32
  | .subAlImm8 _ => true
  | .subEaxImmv imm => fitsSize os32 imm
  | .subRm8Imm8 rm _ => rm.wf as32
  | .subRmvImmv rm imm => rm.wf as32 && fitsSize os32 imm
  | .subRmvSimm8 rm _ => rm.wf as32
  | .xorRm8R8 rm _ => rm.wf as32
  | .xorRmvRv rm _ => rm.wf as32
  | .xorR8Rm8 _ rm => rm.wf as32
  | .xorRvRmv _ rm => rm.wf as32
  | .xorAlImm8 _ => true
  | .xorEaxImmv imm => fitsSize os32 imm
  | .xorRm8Imm8 rm _ => rm.wf as32
  | .xorRmvImmv rm imm => rm.wf as32 && fitsSize os32 imm
  | .xorRmvSimm8 rm _ => rm.wf as32
  | .cmpRm8R8 rm _ => rm.wf as32
  | .cmpRmvRv rm _ => rm.wf as32
  | .cmpR8Rm8 _ rm => rm.wf as32
  | .cmpRvRmv _ rm => rm.wf as32
  | .cmpAlImm8 _ => true
  | .cmpEaxImmv imm => fitsSize os32 imm
  | .cmpRm8Imm8 rm _ => rm.wf as32
  | .cmpRmvImmv rm imm => rm.wf as32 && fitsSize os32 imm
  | .cmpRmvSimm8 rm _ => rm.wf as32
  | .pushEs => true
  | .pushCs => true
  | .pushSs => true
  | .pushDs => true
  | .pushFs => true
  | .pushGs => true
  | .popEs => true
  | .popSs => true
  | .popDs => true
  | .popFs => true
  | .popGs => true
  | .daa => true
  | .das => true
  | .aaa => true
  | .aas => true
  | .incRv _ => true
  | .decRv _ => true
  | .pushRv _ => true
  | .popRv _ => true
  | .pusha => true
  | .popa => true
  | .bound _ ea => ea.wf as32
  | .arpl rm _ => rm.wf as32
  | .pushImmv imm => fitsSize os32 imm
  | .pushSimm8 _ => true
  | .imulRvRmvImmv _ rm imm => rm.wf as32 && fitsSize os32 imm
  | .imulRvRmvSimm8 _ rm _ => rm.wf as32
  | .insb => true
  | .insv => true
  | .outsb => true
  | .outsv => true
  | .joRel8 _ => true
  | .jnoRel8 _ => true
  | .jbRel8 _ => true
  | .jaeRel8 _ => true
  | .jeRel8 _ => true
  | .jneRel8 _ => true
  | .jbeRel8 _ => true
  | .jaRel8 _ => true
  | .jsRel8 _ => true
  | .jnsRel8 _ => true
  | .jpRel8 _ => true
  | .jnpRel8 _ => true
  | .jlRel8 _ => true
  | .jgeRel8 _ => true
  | .jleRel8 _ => true
  | .jgRel8 _ => true
  | .testRm8R8 rm _ => rm.wf as32
  | .testRmvRv rm _ => rm.wf as32
  | .xchgRm8R8 rm _ => rm.wf as32
  | .xchgRmvRv rm _ => rm.wf as32
  | .movRm8R8 rm _ => rm.wf as32
  | .movRmvRv rm _ => rm.wf as32
  | .movR8Rm8 _ rm => rm.wf as32
  | .movRvRmv _ rm => rm.wf as32
  | .movRm16Sreg rm _ => rm.wf as32
  | .lea _ ea => ea.wf as32
  | .movSregRm16 sr rm => decide (sr ≠ .cs) && rm.wf as32
  | .popRmv rm => rm.wf as32
  | .nop => true
  | .xchgEaxRv r => decide (r ≠ .eax)
  | .cbw => true
  | .cwd => true
  | .callPtr off _ => fitsSize os32 off
  | .wait => true
  | .pushf => true
  | .popf => true
  | .sahf => true
  | .lahf => true
  | .movAlMoffs8 off => fitsSize as32 off
  | .movEaxMoffsv off => fitsSize as32 off
  | .movMoffs8Al off => fitsSize as32 off
  | .movMoffsvEax off => fitsSize as32 off
  | .movsb => true
  | .movsv => true
  | .cmpsb => true
  | .cmpsv => true
  | .stosb => true
  | .stosv => true
  | .lodsb => true
  | .lodsv => true
  | .scasb => true
  | .scasv => true
  | .testAlImm8 _ => true
  | .testEaxImmv imm => fitsSize os32 imm
  | .movR8Imm8 _ _ => true
  | .movRvImmv _ imm => fitsSize os32 imm
  | .rolRm8Imm8 rm _ => rm.wf as32
  | .rolRmvImm8 rm _ => rm.wf as32
  | .rolRm8One rm => rm.wf as32
  | .rolRmvOne rm => rm.wf as32
  | .rolRm8Cl rm => rm.wf as32
  | .rolRmvCl rm => rm.wf as32
  | .rorRm8Imm8 rm _ => rm.wf as32
  | .rorRmvImm8 rm _ => rm.wf as32
  | .rorRm8One rm => rm.wf as32
  | .rorRmvOne rm => rm.wf as32
  | .rorRm8Cl rm => rm.wf as32
  | .rorRmvCl rm => rm.wf as32
  | .rclRm8Imm8 rm _ => rm.wf as32
  | .rclRmvImm8 rm _ => rm.wf as32
  | .rclRm8One rm => rm.wf as32
  | .rclRmvOne rm => rm.wf as32
  | .rclRm8Cl rm => rm.wf as32
  | .rclRmvCl rm => rm.wf as32
  | .rcrRm8Imm8 rm _ => rm.wf as32
  | .rcrRmvImm8 rm _ => rm.wf as32
  | .rcrRm8One rm => rm.wf as32
  | .rcrRmvOne rm => rm.wf as32
  | .rcrRm8Cl rm => rm.wf as32
  | .rcrRmvCl rm => rm.wf as32
  | .shlRm8Imm8 rm _ => rm.wf as32
  | .shlRmvImm8 rm _ => rm.wf as32
  | .shlRm8One rm => rm.wf as32
  | .shlRmvOne rm => rm.wf as32
  | .shlRm8Cl rm => rm.wf as32
  | .shlRmvCl rm => rm.wf as32
  | .shrRm8Imm8 rm _ => rm.wf as32
  | .shrRmvImm8 rm _ => rm.wf as32
  | .shrRm8One rm => rm.wf as32
  | .shrRmvOne rm => rm.wf as32
  | .shrRm8Cl rm => rm.wf as32
  | .shrRmvCl rm => rm.wf as32
  | .sarRm8Imm8 rm _ => rm.wf as32
  | .sarRmvImm8 rm _ => rm.wf as32
  | .sarRm8One rm => rm.wf as32
  | .sarRmvOne rm => rm.wf as32
  | .sarRm8Cl rm => rm.wf as32
  | .sarRmvCl rm => rm.wf as32
  | .retNearImm16 _ => true
  | .retNear => true
  | .les _ ea => ea.wf as32
  | .lds _ ea => ea.wf as32
  | .movRm8Imm8 rm _ => rm.wf as32
  | .movRmvImmv rm imm => rm.wf as32 && fitsSize os32 imm
  | .enter _ _ => true
  | .leave => true
  | .retFarImm16 _ => true
  | .retFar => true
  | .int3 => true
  | .intImm8 _ => true
  | .into => true
  | .iret => true
  | .aam _ => true
  | .aad _ => true
  | .xlat => true
  | .esc _ _ rm => rm.wf as32
  | .loopne _ => true
  | .loope _ => true
  | .loop _ => true
  | .jcxz _ => true
  | .inAlImm8 _ => true
  | .inEaxImm8 _ => true
  | .outImm8Al _ => true
  | .outImm8Eax _ => true
  | .callRelv rel => fitsSize os32 rel
  | .jmpRelv rel => fitsSize os32 rel
  | .jmpPtr off _ => fitsSize os32 off
  | .jmpRel8 _ => true
  | .inAlDx => true
  | .inEaxDx => true
  | .outDxAl => true
  | .outDxEax => true
  | .hlt => true
  | .cmc => true
  | .testRm8Imm8 rm _ => rm.wf as32
  | .notRm8 rm => rm.wf as32
  | .negRm8 rm => rm.wf as32
  | .mulRm8 rm => rm.wf as32
  | .imulRm8 rm => rm.wf as32
  | .divRm8 rm => rm.wf as32
  | .idivRm8 rm => rm.wf as32
  | .testRmvImmv rm imm => rm.wf as32 && fitsSize os32 imm
  | .notRmv rm => rm.wf as32
  | .negRmv rm => rm.wf as32
  | .mulRmv rm => rm.wf as32
  | .imulRmv rm => rm.wf as32
  | .divRmv rm => rm.wf as32
  | .idivRmv rm => rm.wf as32
  | .clc => true
  | .stc => true
  | .cli => true
  | .sti => true
  | .cld => true
  | .std => true
  | .incRm8 rm => rm.wf as32
  | .decRm8 rm => rm.wf as32
  | .incRmv rm => rm.wf as32
  | .decRmv rm => rm.wf as32
  | .callRmv rm => rm.wf as32
  | .callM ea => ea.wf as32
  | .jmpRmv rm => rm.wf as32
  | .jmpM ea => ea.wf as32
  | .pushRmv rm => rm.wf as32
  | .sldt rm => rm.wf as32
  | .str rm => rm.wf as32
  | .lldt rm => rm.wf as32
  | .ltr rm => rm.wf as32
  | .verr rm => rm.wf as32
  | .verw rm => rm.wf as32
  | .sgdt ea => ea.wf as32
  | .sidt ea => ea.wf as32
  | .lgdt ea => ea.wf as32
  | .lidt ea => ea.wf as32
  | .smsw rm => rm.wf as32
  | .lmsw rm => rm.wf as32
  | .lar _ rm => rm.wf as32
  | .lsl _ rm => rm.wf as32
  | .clts => true
  | .movR32Cr _ _ => true
  | .movR32Dr _ _ => true
  | .movCrR32 _ _ => true
  | .movDrR32 _ _ => true
  | .movR32Tr _ _ => true
  | .movTrR32 _ _ => true
  | .joRelv rel => fitsSize os32 rel
  | .jnoRelv rel => fitsSize os32 rel
  | .jbRelv rel => fitsSize os32 rel
  | .jaeRelv rel => fitsSize os32 rel
  | .jeRelv rel => fitsSize os32 rel
  | .jneRelv rel => fitsSize os32 rel
  | .jbeRelv rel => fitsSize os32 rel
  | .jaRelv rel => fitsSize os32 rel
  | .jsRelv rel => fitsSize os32 rel
  | .jnsRelv rel => fitsSize os32 rel
  | .jpRelv rel => fitsSize os32 rel
  | .jnpRelv rel => fitsSize os32 rel
  | .jlRelv rel => fitsSize os32 rel
  | .jgeRelv rel => fitsSize os32 rel
  | .jleRelv rel => fitsSize os32 rel
  | .jgRelv rel => fitsSize os32 rel
  | .seto rm => rm.wf as32
  | .setno rm => rm.wf as32
  | .setb rm => rm.wf as32
  | .setae rm => rm.wf as32
  | .sete rm => rm.wf as32
  | .setne rm => rm.wf as32
  | .setbe rm => rm.wf as32
  | .seta rm => rm.wf as32
  | .sets rm => rm.wf as32
  | .setns rm => rm.wf as32
  | .setp rm => rm.wf as32
  | .setnp rm => rm.wf as32
  | .setl rm => rm.wf as32
  | .setge rm => rm.wf as32
  | .setle rm => rm.wf as32
  | .setg rm => rm.wf as32
  | .btRmvRv rm _ => rm.wf as32
  | .btsRmvRv rm _ => rm.wf as32
  | .btrRmvRv rm _ => rm.wf as32
  | .btcRmvRv rm _ => rm.wf as32
  | .btRmvImm8 rm _ => rm.wf as32
  | .btsRmvImm8 rm _ => rm.wf as32
  | .btrRmvImm8 rm _ => rm.wf as32
  | .btcRmvImm8 rm _ => rm.wf as32
  | .shldImm8 rm _ _ => rm.wf as32
  | .shldCl rm _ => rm.wf as32
  | .shrdImm8 rm _ _ => rm.wf as32
  | .shrdCl rm _ => rm.wf as32
  | .imulRvRmv _ rm => rm.wf as32
  | .lss _ ea => ea.wf as32
  | .lfs _ ea => ea.wf as32
  | .lgs _ ea => ea.wf as32
  | .movzxRvRm8 _ rm => rm.wf as32
  | .movzxR32Rm16 _ rm => rm.wf as32
  | .bsf _ rm => rm.wf as32
  | .bsr _ rm => rm.wf as32
  | .movsxRvRm8 _ rm => rm.wf as32
  | .movsxR32Rm16 _ rm => rm.wf as32
  | .segEs => true
  | .segCs => true
  | .segSs => true
  | .segDs => true
  | .segFs => true
  | .segGs => true
  | .opSize => true
  | .addrSize => true
  | .lockPrefix => true
  | .repne => true
  | .rep => true

end Sys2Proof
end

