-- ==== Sys2Proof/Certificates/Slice0/Obligations.lean ====
section
/-! DEFINITION. The statements for the provers. Where a state is `closed` the statement speaks of the closed world of
20_memory.md R104 and R186: RAM at every address, no other bus master (Safety.lean). -/

open Sys2Proof Sys2Proof.Machine

/-! Two-operand instructions. -/

/-- The result and the flags of AddFlags and SubFlags (41_arithmetic.md R360), from the unbounded sum and difference: OF
says that the signed result does not fit. -/
def Obligations.AddSubResultAndFlags : Prop :=
  ∀ (f : Flags) (w : Width) (a b : BitVec w.bits) (c : Bool),
    (let sum := a.toNat + b.toNat + c.toNat
     let r := BitVec.ofNat w.bits sum
     a + b + BitVec.ofNat w.bits c.toNat = r ∧ f.adding a b c =
      { f with
        cf := decide (2 ^ w.bits ≤ sum)
        af := decide (16 ≤ a.toNat % 16 + b.toNat % 16 + c.toNat)
        of := decide (r.toInt ≠ a.toInt + b.toInt + c.toNat)
        sf := decide (r.toInt < 0)
        zf := decide (sum % 2 ^ w.bits = 0)
        pf := decide ((List.range 8).countP r.getLsbD % 2 = 0) }) ∧
    (let difference : Int := a.toNat - b.toNat - c.toNat
     let r := BitVec.ofInt w.bits difference
     a - b - BitVec.ofNat w.bits c.toNat = r ∧ f.subtracting a b c =
      { f with
        cf := decide (difference < 0)
        af := decide (a.toNat % 16 < b.toNat % 16 + c.toNat)
        of := decide (r.toInt ≠ a.toInt - b.toInt - c.toNat)
        sf := decide (r.toInt < 0)
        zf := decide (difference % 2 ^ w.bits = 0)
        pf := decide ((List.range 8).countP r.getLsbD % 2 = 0) })

/-- ADD, ADC, SUB, SBB, AND, OR, XOR with an r/m or accumulator destination. -/
def Obligations.BinaryToRmResult : Prop :=
  ∀ (s u : State) (F : AluForms) (i : Instr) (w : Width) (rm : Rm) (b : BitVec w.bits) (p : Place),
    s.closed = true → F ∈ binaryForms → F.ToRm s i w rm b → locate w rm true s = .ok p u →
    ∃ v f, BinaryRule s (u.placeValue w p) b F v f ∧ Writes s i w p v f

/-- The same with a register destination and an r/m source. -/
def Obligations.BinaryFromRmResult : Prop :=
  ∀ (s u : State) (F : AluForms) (i : Instr) (w : Width) (r : Reg) (rm : Rm) (p : Place),
    s.closed = true → F ∈ binaryForms → F.FromRm s i w r rm → locate w rm false s = .ok p u →
    ∃ v f, BinaryRule s (s.regs.read w r) (u.placeValue w p) F v f ∧ Sets s i (s.regs.write w r v) f

/-- CMP and TEST write flags only. -/
def Obligations.CompareAndTestSetFlagsOnly : Prop :=
  ∀ (s u : State) (i : Instr) (w : Width) (rm : Rm) (p : Place),
    s.closed = true → locate w rm false s = .ok p u →
    (∀ b, cmpForms.ToRm s i w rm b → Sets s i s.regs (s.flags.subtracting (u.placeValue w p) b false)) ∧
    (∀ r, cmpForms.FromRm s i w r rm →
      Sets s i s.regs (s.flags.subtracting (s.regs.read w r) (u.placeValue w p) false)) ∧
    (∀ b, TestForm s i w rm b → ∃ af, Sets s i s.regs (s.flags.logical (u.placeValue w p &&& b) af))

/-- INC, DEC, NEG, NOT. With other masters on the bus a byte in memory is read after what they write the next time they
have the bus, and written after what they write the time after that, unless LOCK# is asserted in between
(20_memory.md R182, R186); that a master has one moment before each unlocked cycle is the model's choice (log 27). -/
def Obligations.UnaryResultAndFlags : Prop :=
  (∀ (s u : State) (i : Instr) (w : Width) (rm : Rm) (g : BitVec w.bits → BitVec w.bits) (f : BitVec w.bits → Flags)
    (p : Place),
    s.closed = true → UnaryForm s i w rm g f → locate w rm true s = .ok p u →
    Writes s i w p (g (u.placeValue w p)) (f (u.placeValue w p))) ∧
  (∀ (s u : State) (ea : EA) (p : Dword), u.map = [] → u.dec.held = false →
    locate .w8 (.mem ea) true s = .ok (.mem [p]) u →
    let read := u.othersWrite
    let written := if s.dec.lock then read else read.othersWrite
    ∃ t, exec (.notRm8 (.mem ea)) s = .next t ∧ t.regs = s.regs ∧ t.masters = written.masters ∧
      t.mem = written.mem.write p.toNat (~~~(read.mem.read p.toNat)))

/-! Multiplication, division, decimal arithmetic. -/

/-- MUL and IMUL: the product, double width for one operand; CF = OF = it does not fit in the width
(41_arithmetic.md R380 to R382). -/
def Obligations.MultiplyGivesProduct : Prop :=
  ∀ (s u : State) (i : Instr) (w : Width) (rm : Rm) (p : Place),
    s.closed = true → locate w rm false s = .ok p u →
    (∀ signed, MulForm s i w rm signed →
      let product := asInt signed (s.regs.read w .eax) * asInt signed (u.placeValue w p)
      ∃ any high, (high = false ↔ Fits signed w.bits product) ∧
        Sets s i (s.regs.withDouble w (BitVec.ofInt _ product))
          { s.flags.freeStatus any with cf := high, of := high }) ∧
    (∀ r b, MulRegForm s i w r rm b →
      let product := (u.placeValue w p).toInt * b.toInt
      ∃ any high, (high = false ↔ Fits true w.bits product) ∧
        Sets s i (s.regs.write w r (BitVec.ofInt _ product)) { s.flags.freeStatus any with cf := high, of := high })

/-- DIV and IDIV: quotient and remainder, the remainder smaller than the divisor and with the sign of the dividend; a
divisor of 0 or a quotient that does not fit takes #DE (41_arithmetic.md R385, R386). -/
def Obligations.DivideGivesQuotientOrFaults : Prop :=
  ∀ (s u : State) (i : Instr) (w : Width) (rm : Rm) (signed : Bool) (p : Place),
    s.closed = true → DivForm s i w rm signed → locate w rm false s = .ok p u →
    let n := asInt signed (s.regs.double w)
    let d := asInt signed (u.placeValue w p)
    (d = 0 → exec i s = takeExn s u .de) ∧
    ∀ q r : Int, n = q * d + r → |r| < |d| → (0 < r → 0 < n) → (r < 0 → n < 0) →
      (Fits signed w.bits q →
        ∃ any, Sets s i (s.regs.withQuotient w (BitVec.ofInt _ q) (BitVec.ofInt _ r)) (s.flags.freeStatus any)) ∧
      (¬ Fits signed w.bits q → exec i s = takeExn s u .de)

/-- DAA and DAS (41_arithmetic.md R366, R372). -/
def Obligations.DecimalAdjustGivesAl : Prop :=
  ∀ s : State, s.closed = true →
    let al : Byte := s.regs.read .w8 .eax
    let low := decide (al.toNat % 16 > 9) || s.flags.af
    let high := decide (al.toNat > 0x99) || s.flags.cf
    let adjust : Byte := (if low then 6 else 0) + (if high then 0x60 else 0)
    (∃ any, Sets s .daa (s.regs.write .w8 .eax (al + adjust))
      { s.flags.szp (al + adjust) with cf := high, af := low, of := any }) ∧
    (∃ any, Sets s .das (s.regs.write .w8 .eax (al - adjust))
      { s.flags.szp (al - adjust) with cf := high || (low && decide (al.toNat < 6)), af := low, of := any })

/-- AAA and AAS; AH is any value where the carry or borrow out of AL may or may not reach it (41_arithmetic.md R365,
R373, 93_implementation_defined.md U25). -/
def Obligations.AsciiAdjustGivesAx : Prop :=
  ∀ s : State, s.closed = true →
    let al : Byte := s.regs.read .w8 .eax
    let ah : Byte := s.regs.read .w8 regAh
    let adjust := decide (al.toNat % 16 > 9) || s.flags.af
    (∃ any x, (adjust = false → x = ah) ∧ (adjust = true → al.toNat < 0xFA → x = ah + 1) ∧
      Sets s .aaa ((s.regs.write .w8 .eax ((if adjust then al + 6 else al) &&& 0x0F)).write .w8 regAh x)
        { s.flags.freeStatus any with cf := adjust, af := adjust }) ∧
    (∃ any x, (adjust = false → x = ah) ∧ (adjust = true → 6 ≤ al.toNat → x = ah - 1) ∧
      Sets s .aas ((s.regs.write .w8 .eax ((if adjust then al - 6 else al) &&& 0x0F)).write .w8 regAh x)
        { s.flags.freeStatus any with cf := adjust, af := adjust })

/-- AAM and AAD with any base; AAM by 0 takes #DE (41_arithmetic.md R388, R389). -/
def Obligations.AsciiMultiplyDivideGivesAx : Prop :=
  ∀ (s : State) (base : Byte), s.closed = true →
    let al : Byte := s.regs.read .w8 .eax
    let ah : Byte := s.regs.read .w8 regAh
    (base ≠ 0 → ∃ any, Sets s (.aam base)
      ((s.regs.write .w8 regAh (BitVec.ofNat 8 (al.toNat / base.toNat))).write .w8 .eax
        (BitVec.ofNat 8 (al.toNat % base.toNat)))
      ((s.flags.freeStatus any).szp (BitVec.ofNat 8 (al.toNat % base.toNat)))) ∧
    exec (.aam 0) s = takeExn s s .de ∧
    (∃ any, Sets s (.aad base) ((s.regs.write .w8 .eax (al + ah * base)).write .w8 regAh 0)
      ((s.flags.freeStatus any).szp (al + ah * base)))

/-! Shifts, rotates, bits. -/

/-- The seven shifts and rotates by a count of 1 to 31 after masking, and by 0 (43_logical_shift_rotate.md R430 to R433,
R440 to R443): OF is defined for a count of 1 and then says that the sign changed. That a count of 0 stores nothing at an
operand located for writing is the model's choice (log 41). -/
def Obligations.ShiftRotateResult : Prop :=
  ∀ (s u : State) (op : ShiftOp) (i : Instr) (w : Width) (rm : Rm) (count : Byte) (p : Place),
    s.closed = true → ShiftForm s op i w rm count → locate w rm true s = .ok p u →
    let c := count.toNat % 32
    let a := u.placeValue w p
    (c = 0 → Sets s i s.regs s.flags) ∧
    (c ≠ 0 → ∃ (r : BitVec w.bits) (of_ af : Bool),
      (∀ k < w.bits, r.getLsbD k = op.bit s.flags.cf a c k) ∧ (c = 1 → of_ = (r.msb != a.msb)) ∧
      Writes s i w p r
        (if op.rotates then { s.flags with cf := op.bit s.flags.cf a c w.bits, of := of_ }
         else { s.flags.szp r with cf := op.bit s.flags.cf a c w.bits, of := of_, af := af }))

/-- SHLD and SHRD (43_logical_shift_rotate.md R434, R435): by a count above the width the result and the status flags
are any values (93_implementation_defined.md U26). That a count of 0 stores nothing at an operand located for writing is
the model's choice (log 41). -/
def Obligations.DoubleShiftResult : Prop :=
  ∀ (s u : State) (left : Bool) (i : Instr) (rm : Rm) (q : Reg) (count : Byte) (p : Place),
    s.closed = true → DoubleForm s left i rm q count → locate s.vWidth rm true s = .ok p u →
    let c := count.toNat % 32
    let a := u.placeValue s.vWidth p
    let b := s.regs.read s.vWidth q
    (c = 0 → Sets s i s.regs s.flags) ∧
    (s.vWidth.bits < c → ∃ r any, Writes s i s.vWidth p r (s.flags.freeStatus any)) ∧
    (c ≠ 0 → c ≤ s.vWidth.bits → ∃ (r : BitVec s.vWidth.bits) (of_ af : Bool),
      (∀ k < s.vWidth.bits, r.getLsbD k = doubleBit left a b c k) ∧ (c = 1 → of_ = (r.msb != a.msb)) ∧
      Writes s i s.vWidth p r
        { s.flags.szp r with
          cf := if left then a.getLsbD (s.vWidth.bits - c) else a.getLsbD (c - 1), of := of_, af := af })

/-- BT, BTS, BTR, BTC with an immediate offset (44_bit_manipulation.md R450 to R454). -/
def Obligations.BitImmediateResult : Prop :=
  ∀ (s u : State) (op : BitOp) (i : Instr) (rm : Rm) (imm : Byte) (p : Place),
    s.closed = true → BitImmForm op i rm imm → locate s.vWidth rm op.writes s = .ok p u →
    let a := u.placeValue s.vWidth p
    let k := imm.toNat % s.vWidth.bits
    ∃ any, (op = .bt → Sets s i s.regs { s.flags.freeStatus any with cf := a.getLsbD k }) ∧
      (op ≠ .bt → ∃ r : BitVec s.vWidth.bits,
        (∀ j < s.vWidth.bits, r.getLsbD j = if j = k then op.new (a.getLsbD k) else a.getLsbD j) ∧
        Writes s i s.vWidth p r { s.flags.freeStatus any with cf := a.getLsbD k })

/-- BT, BTS, BTR, BTC with a register offset, which with a memory base is signed and selects any unit of the bit string
(44_bit_manipulation.md R450 to R454). -/
def Obligations.BitRegisterResult : Prop :=
  ∀ (s u : State) (op : BitOp) (i : Instr) (rm : Rm) (q : Reg) (p : Place),
    s.closed = true → BitRegForm op i rm q → BitPlace s s.vWidth op.writes (s.regs.read s.vWidth q) rm p u →
    let a := u.placeValue s.vWidth p
    let k := ((s.regs.read s.vWidth q).toInt % s.vWidth.bits).toNat
    ∃ any, (op = .bt → Sets s i s.regs { s.flags.freeStatus any with cf := a.getLsbD k }) ∧
      (op ≠ .bt → ∃ r : BitVec s.vWidth.bits,
        (∀ j < s.vWidth.bits, r.getLsbD j = if j = k then op.new (a.getLsbD k) else a.getLsbD j) ∧
        Writes s i s.vWidth p r { s.flags.freeStatus any with cf := a.getLsbD k })

/-- BSF and BSR: the number of the lowest or highest 1 bit; with none ZF is set and the destination is any value
(44_bit_manipulation.md R455, R456, 93_implementation_defined.md U27). -/
def Obligations.BitScanFindsIndex : Prop :=
  ∀ (s u : State) (q : Reg) (rm : Rm) (p : Place),
    s.closed = true → locate s.vWidth rm false s = .ok p u →
    let a := u.placeValue s.vWidth p
    (∀ k < s.vWidth.bits, a.getLsbD k = true →
      ((∀ j < k, a.getLsbD j = false) → ∃ any, Sets s (.bsf q rm) (s.regs.write s.vWidth q (BitVec.ofNat _ k))
        { s.flags.freeStatus any with zf := false }) ∧
      ((∀ j, k < j → a.getLsbD j = false) → ∃ any, Sets s (.bsr q rm) (s.regs.write s.vWidth q (BitVec.ofNat _ k))
        { s.flags.freeStatus any with zf := false })) ∧
    (a = 0 → ∃ any x any' x',
      Sets s (.bsf q rm) (s.regs.write s.vWidth q x) { s.flags.freeStatus any with zf := true } ∧
      Sets s (.bsr q rm) (s.regs.write s.vWidth q x') { s.flags.freeStatus any' with zf := true })

/-! Data transfer. -/

/-- MOV to r/m, and SETcc. -/
def Obligations.MoveToRmStores : Prop :=
  ∀ (s u : State) (w : Width) (rm : Rm) (p : Place), s.closed = true → locate w rm true s = .ok p u →
    (∀ i v, MoveForm s i w rm v → Writes s i w p v s.flags) ∧
    (∀ i c, w = .w8 → CondSet rm i c → Writes s i w p (if s.flags.holds c then 1 else 0) s.flags)

/-- MOV from r/m, MOVZX, MOVSX. -/
def Obligations.LoadFromRmWritesRegister : Prop :=
  ∀ (s u : State) (i : Instr) (w : Width) (rm : Rm) (r : Reg) (d : Width) (f : BitVec w.bits → BitVec d.bits)
    (p : Place),
    s.closed = true → LoadForm s i w rm r d f → locate w rm false s = .ok p u →
    Sets s i (s.regs.write d r (f (u.placeValue w p))) s.flags

/-- MOV with a direct offset, and XLAT (40_data_transfer.md R305, R315). -/
def Obligations.DirectOffsetMovesAccumulator : Prop :=
  ∀ (s u : State) (i : Instr) (store : Bool) (w : Width) (off : Dword) (ps : List Dword), s.closed = true →
    (MoffsForm s i store w off → segLocate (s.segFor .ds) (s.asWrap off) w.bytes store s = .ok ps u →
      if store then Leaves s i s s.regs s.flags.settled s.nextEip ps (s.regs.read w .eax).toNat
      else Sets s i (s.regs.write w .eax (BitVec.ofNat w.bits (u.mem.readAt ps))) s.flags) ∧
    (segLocate (s.segFor .ds) (s.asWrap (s.regs.ebx + (s.regs.read .w8 .eax).setWidth 32)) 1 false s = .ok ps u →
      Sets s .xlat (s.regs.write .w8 .eax (BitVec.ofNat 8 (u.mem.readAt ps))) s.flags)

/-- The moves and conversions on registers and flags alone, and the instructions that change CF or DF, complete in
every state. -/
def Obligations.RegisterInstructionsComplete : Prop :=
  ∀ (s : State) (i : Instr) (g : Regs) (f : Flags), s.closed = true → RegisterForm s i g f → Sets s i g f

/-- XCHG. With an operand in memory LOCK# is asserted for the whole exchange, so no other master writes between its read
and its write (20_memory.md R182, R184); when other masters write before it is the model's choice (log 27). -/
def Obligations.ExchangeSwapsOperands : Prop :=
  ∀ (s u : State) (i : Instr) (w : Width) (rm : Rm) (r : Reg) (p : Place),
    ExchangeForm s i w rm r → locate w rm true s = .ok p u →
    (s.closed = true →
      (∀ q, rm = .reg q → Sets s i ((s.regs.write w q (s.regs.read w r)).write w r (s.regs.read w q)) s.flags) ∧
      (∀ ea, rm = .mem ea → WritesOver s i (s.regs.write w r (u.placeValue w p)) w p (s.regs.read w r) s.flags)) ∧
    (∀ ps, p = .mem ps → u.map = [] → u.dec.held = false →
      let v := u.othersWrite
      ∃ t, exec i s = .next t ∧ t.masters = v.masters ∧ t.regs = s.regs.write w r (v.placeValue w p) ∧
        t.mem = v.mem.writeAt ps (s.regs.read w r).toNat)

/-- CLI and STI write IF if CPL is not above IOPL or PE = 0, and else take #GP(0); STI of a clear IF holds interrupts off
for one instruction (45_control_transfer.md R493, R494). -/
def Obligations.InterruptFlagChecked : Prop :=
  ∀ s : State, s.closed = true →
    (s.cr0.pe = false ∨ s.cpl.toNat ≤ s.flags.iopl.toNat →
      Sets s .cli s.regs { s.flags with ifl := false } ∧
      SetsIn s .sti { s with inhibit := s.inhibit || !s.flags.ifl } s.regs { s.flags with ifl := true }) ∧
    (s.cr0.pe = true → s.flags.iopl.toNat < s.cpl.toNat →
      exec .cli s = takeExn s s (.gp 0) ∧ exec .sti s = takeExn s s (.gp 0))

/-- MOV from a segment register, SLDT, STR and SMSW to r/m16; with a 32-bit register destination the upper half is any
value (93_implementation_defined.md U24). -/
def Obligations.StoreSelectorWritesSelector : Prop :=
  ∀ (s u : State) (i : Instr) (rm : Rm) (good : Word → Prop) (k : Nat) (p : Place),
    s.closed = true → SelectorForm s i rm good k →
    locate .w16 rm true { s with free := s.free + k } = .ok p u →
    ∃ v, good v ∧
      ((∃ ea, rm = .mem ea) ∨ s.os32 = false → Writes s i .w16 p v s.flags) ∧
      (∀ r, rm = .reg r → s.os32 = true → ∃ hi : Word, Sets s i (s.regs.write .w32 r (hi ++ v)) s.flags)

/-! The stack. -/

/-- PUSH and PUSHF: the value goes below the stack pointer, which moves down (40_data_transfer.md R302); PUSHF is #GP(0)
in Virtual 8086 Mode with IOPL below 3 (R342). With a 32-bit operand size the upper half of the slot of a segment
register is any value (93_implementation_defined.md U24). -/
def Obligations.PushStoresItsOperand : Prop :=
  ∀ (s u t : State) (i : Instr) (ps : List Dword), s.closed = true →
    (∀ (w : Width) (v : State → BitVec w.bits), PushForm s i w v u →
      segLocate .ss (s.stackWrap (s.stackPtr - BitVec.ofNat 32 w.bytes)) w.bytes true u = .ok ps t →
      Leaves s i s (s.moved (-(BitVec.ofNat 32 w.bytes))) s.flags.settled s.nextEip ps (v t).toNat) ∧
    (∀ sr, PushSregForm i sr →
      let n := itemBytes s.os32
      segLocate .ss (s.stackWrap (s.stackPtr - BitVec.ofNat 32 n)) n true { s with free := s.free + s.os32.toNat }
        = .ok ps t →
      ∃ hi, (s.os32 = false → hi = 0) ∧ hi < 65536 ∧
        Leaves s i s (s.moved (-(BitVec.ofNat 32 n))) s.flags.settled s.nextEip ps
          (hi * 65536 + (s.segs.get sr).sel.toNat)) ∧
    (s.flags.vm = true → s.flags.iopl ≠ 3 → exec .pushf s = takeExn s s (.gp 0))

/-- POP into a register, into r/m (addressed after the stack pointer moved), and POPF, which is #GP(0) in Virtual 8086
Mode with IOPL below 3 (40_data_transfer.md R345). -/
def Obligations.PopWritesItsDestination : Prop :=
  ∀ (s : State), s.closed = true →
    (∀ u ps, segLocate .ss s.stackPtr s.vWidth.bytes false s = .ok ps u →
      let v := BitVec.ofNat s.vWidth.bits (u.mem.readAt ps)
      let g := s.moved (BitVec.ofNat 32 s.vWidth.bytes)
      (∀ r, Sets s (.popRv r) (g.write s.vWidth r v) s.flags) ∧
      (∀ rm p t, locate s.vWidth rm true { u with regs := g } = .ok p t →
        WritesOver s (.popRmv rm) g s.vWidth p (BitVec.ofNat s.vWidth.bits (t.mem.readAt ps)) s.flags) ∧
      (s.flags.vm = false ∨ s.flags.iopl = 3 →
        Leaves s .popf s g (s.loadedFlags (v.setWidth 32)) s.nextEip [] 0)) ∧
    (s.flags.vm = true → s.flags.iopl ≠ 3 → exec .popf s = takeExn s s (.gp 0))

/-- PUSHA and POPA: eight items in the order of 40_data_transfer.md R312 and R313; POPA drops the stack pointer it finds.
That PUSHA locates and checks all eight items before it writes any is the model's choice (log 35; R312 allows a fault
after some are written), and so is that PUSHAD pushes the whole of ESP, also where the stack pointer is SP (log 44). -/
def Obligations.PushPopAllMoveEveryRegister : Prop :=
  ∀ (s u : State) (ls : List (List Dword)), s.closed = true →
    (locatePushes s.vWidth.bytes 8 1 s = .ok ls u →
      ∃ t, exec .pusha s = .next t ∧
        After s t (s.moved (-(BitVec.ofNat 32 (8 * s.vWidth.bytes)))) s.flags.settled s.nextEip ls.flatten ∧
        t.mem = (ls.zip [s.regs.eax, s.regs.ecx, s.regs.edx, s.regs.ebx, s.regs.esp, s.regs.ebp, s.regs.esi,
          s.regs.edi]).foldl (fun m x => m.writeAt x.1 x.2.toNat) u.mem) ∧
    (∀ di si bp any bx dx cx ax, locateItems s.vWidth.bytes 8 0 s = .ok [di, si, bp, any, bx, dx, cx, ax] u →
      let put := fun (g : Regs) (x : Reg × List Dword) =>
        g.write s.vWidth x.1 (BitVec.ofNat s.vWidth.bits (u.mem.readAt x.2))
      Sets s .popa ([(.edi, di), (.esi, si), (.ebp, bp), (.ebx, bx), (.edx, dx), (.ecx, cx), (.eax, ax)].foldl put
        (s.moved (BitVec.ofNat 32 (8 * s.vWidth.bytes)))) s.flags)

/-! Segment registers. -/

/-- MOV, POP, LDS and their kin in Real Mode and Virtual 8086 Mode: base 16 * selector; MOV and POP of SS hold
interrupts off for one instruction (20_memory.md R121, 10_state.md R53, R83). The model's choices: a Real Mode load makes
a register that was left null usable again (log 33), and the stack pointer of POP SS moves by the B bit of the SS just
loaded (log 34). -/
def Obligations.LoadSegmentOutsideProtectedMode : Prop :=
  ∀ (s u : State) (i : Instr) (sr : Sreg) (sel : Word) (g : Segs → Regs) (wait : Bool),
    s.closed = true → SregLoad s i sr sel u g wait → s.protMode = false →
    let segs := s.segs.set sr (loaded8086 s (s.segs.get sr) sel)
    SetsIn s i { s with segs := segs, inhibit := s.inhibit || wait } (g segs) s.flags

/-- The same in Protected Mode (20_memory.md R126, R135 to R137): a null selector marks a data segment register unusable
and is #GP(0) for SS; else the descriptor must lie in its table, and be of the right type, visible and present. That the
stack pointer of POP SS moves by the B bit of the SS just loaded is the model's choice (log 34). -/
def Obligations.LoadSegmentChecksDescriptor : Prop :=
  ∀ (s u : State) (i : Instr) (sr : Sreg) (sel : Word) (g : Segs → Regs) (wait : Bool),
    s.closed = true → SregLoad s i sr sel u g wait → s.protMode = true →
    let rpl := sel.extractLsb' 0 2
    let null := sel.toNat < 4
    let code : Word := sel &&& 0xFFFC
    (null → sr ≠ .ss →
      let segs := s.segs.set sr { s.segs.get sr with sel := sel, valid := false }
      SetsIn s i { s with segs := segs } (g segs) s.flags) ∧
    (null → sr = .ss → exec i s = takeExn s u (.gp 0)) ∧
    (¬ null → (¬ if sel.getLsbD 2 then s.ldtr.valid = true ∧ 8 * (sel.toNat / 8) + 7 ≤ s.ldtr.limit.toNat
        else 8 * (sel.toNat / 8) + 7 ≤ s.gdtr.limit.toNat) → exec i s = takeExn s u (.gp code)) ∧
    (¬ null → ∀ a d v, findDesc sel .gp u = .ok (a, d) v →
      let right := if sr = .ss then descS d = true ∧ descE d = false ∧ descW d = true
        else descS d = true ∧ (descE d = false ∨ descW d = true)
      let visible := if sr = .ss then rpl = s.cpl ∧ descDpl d = s.cpl
        else (descE d = true ∧ descC d = true) ∨ (s.cpl.toNat ≤ (descDpl d).toNat ∧ rpl.toNat ≤ (descDpl d).toNat)
      (¬ (right ∧ visible) → exec i s = takeExn s v (.gp code)) ∧
      (right → visible → descP d = false →
        exec i s = takeExn s v (if sr = .ss then .ss code else .np code)) ∧
      (right → visible → descP d = true → ∀ ps x t, Accessed a d v ps x t →
        let segs := s.segs.set sr (described sel d)
        Leaves s i { s with segs := segs, inhibit := s.inhibit || wait } (g segs) s.flags.settled s.nextEip
          ps x))

/-! Ports and strings. -/

/-- IN and OUT, and byte cycles to addresses that are no RAM (20_memory.md R104, R116, R172, R175, 92_eei_decisions.md
D5): IN reads any value from the port and OUT writes the accumulator to it, in one bus cycle or, across the end of a
doubleword of ports, in two, the high-order part first, and devices see the bytes at the ports they answer; a device in
memory gives any value and sees what is written, ROM keeps its contents, an absent address gives any value and drops what
is written. That a device cycle is recorded in ioLog and its answer is a free value is the model's choice (log 10), and
so is what answers a port (log 10) and an address (log 1). -/
def Obligations.InOutRunsItsCycle : Prop :=
  (∀ (s u : State) (i : Instr) (input : Bool) (w : Width) (port : Nat),
    s.closed = true → PortForm s i input w port → ioPermitted port w.bytes s = .ok () u →
    if input then ∃ v : BitVec w.bits, SetsIn s i { s with ioLog := s.portLog false port w.bytes v.toNat ++ s.ioLog }
      (s.regs.write w .eax v) s.flags
    else SetsIn s i { s with ioLog := s.portLog true port w.bytes (s.regs.read w .eax).toNat ++ s.ioLog } s.regs
      s.flags) ∧
  (∀ (s u : State) (ea : EA) (r : Reg) (p : Dword), u.masters = [] →
    (locate .w8 (.mem ea) false s = .ok (.mem [p]) u →
      ∃ t v, exec (.movR8Rm8 r (.mem ea)) s = .next t ∧ t.regs = s.regs.write .w8 r v ∧ t.mem = u.mem ∧
        (u.kindAt p = .ram ∨ u.kindAt p = .rom → v = u.mem.read p.toNat) ∧
        t.ioLog = if u.kindAt p = .device then .memory false p 1 (v.setWidth 32) :: u.ioLog else u.ioLog) ∧
    (locate .w8 (.mem ea) true s = .ok (.mem [p]) u →
      let v : Byte := s.regs.read .w8 r
      ∃ t, exec (.movRm8R8 (.mem ea) r) s = .next t ∧ t.regs = s.regs ∧
        t.mem = (if u.kindAt p = .ram then u.mem.write p.toNat v else u.mem) ∧
        t.ioLog = if u.kindAt p = .device then .memory true p 1 (v.setWidth 32) :: u.ioLog else u.ioLog))

/-- IoPermitted (20_memory.md R173), with paging off where it reads the I/O bitmap: free in Real Mode and where CPL is
not above IOPL outside Virtual 8086 Mode; else every bit of the port's bytes must be 0. -/
def Obligations.IoPermissionBitmapChecked : Prop :=
  ∀ (s : State) (port n : Nat),
    let free := s.cr0.pe = false ∨ (s.flags.vm = false ∧ s.cpl.toNat ≤ s.flags.iopl.toNat)
    let word := fun k => s.mem.readAt (addrRun (s.tr.base + BitVec.ofNat 32 k) 2)
    let at_ := word 0x66 + port / 8
    (free → ioPermitted port n s = .ok () s) ∧
    (¬ free → s.closed = true → s.cr0.pg = false →
      let room := s.tr.is386 = true ∧ 0x67 ≤ s.tr.limit.toNat ∧ at_ + 1 ≤ s.tr.limit.toNat
      (room → (∀ k < n, (word at_).testBit (port % 8 + k) = false) → ioPermitted port n s = .ok () s) ∧
      (room → (∃ k < n, (word at_).testBit (port % 8 + k) = true) → ioPermitted port n s = .error (.exn (.gp 0)) s) ∧
      (¬ room → ioPermitted port n s = .error (.exn (.gp 0)) s))

/-- The string instructions: one element without a repeat prefix; with one, nothing for a count of 0, else one element
and a count one lower, going on at the same instruction unless the count is 0 or the comparison ends the repetition
(42_string.md R400 to R408). The model's choices: INS and OUTS record their cycles in ioLog and INS gets a free value
(log 10), and an iteration that goes on at the same instruction keeps RF (log 46). -/
def Obligations.StringIterationMovesData : Prop :=
  ∀ (s : State) (i : Instr) (op : StringOp) (w : Width), s.closed = true → StringForm s i op w →
    (∀ k, s.dec.rep = some k → s.countOf s.regs = 0 → Sets s i s.regs s.flags) ∧
    (∀ g f s' ps v, Element s w op g f s' ps v →
      (s.dec.rep = none → Leaves s i s' g f.settled s.nextEip ps v) ∧
      (∀ k, s.dec.rep = some k → s.countOf s.regs ≠ 0 →
        let g' := s.bump g .ecx (-1)
        if s.countOf g' = 0 ∨ (op.compares = true ∧ f.zf = decide (k = .repne)) then
          Leaves s i s' g' f.settled s.nextEip ps v
        else Leaves s i s' g' f s.eip ps v))

/-! Control transfer. -/

/-- Jcc, JMP, LOOP and its kin, JCXZ: taken, EIP is the target cut to the operand size, and #GP(0) where that lies
beyond the limit of CS (45_control_transfer.md R461 to R473). -/
def Obligations.RelativeBranchesGoToTarget : Prop :=
  ∀ (s : State) (i : Instr) (taken : Bool) (rel : Dword) (g : Regs), s.closed = true → BranchForm s i taken rel g →
    let target : Dword := ((s.nextEip + rel).setWidth s.vWidth.bits).setWidth 32
    (taken = false → Goes s i g s.flags s.nextEip) ∧
    (taken = true → target ≤ s.segs.cs.limit → Goes s i g s.flags target) ∧
    (taken = true → s.segs.cs.limit < target → exec i s = takeExn s s (.gp 0))

/-- The conditions after a comparison say how the operands compare (30_encoding.md R219, 41_arithmetic.md R360, R371). -/
def Obligations.ConditionsAfterCompare : Prop :=
  ∀ (f : Flags) (w : Width) (a b : BitVec w.bits),
    let g := f.subtracting a b false
    (g.holds .b = true ↔ a.toNat < b.toNat) ∧ (g.holds .ae = true ↔ b.toNat ≤ a.toNat) ∧
    (g.holds .be = true ↔ a.toNat ≤ b.toNat) ∧ (g.holds .a = true ↔ b.toNat < a.toNat) ∧
    (g.holds .l = true ↔ a.toInt < b.toInt) ∧ (g.holds .ge = true ↔ b.toInt ≤ a.toInt) ∧
    (g.holds .le = true ↔ a.toInt ≤ b.toInt) ∧ (g.holds .g = true ↔ b.toInt < a.toInt) ∧
    (g.holds .e = true ↔ a = b) ∧ (g.holds .ne = true ↔ a ≠ b) ∧
    (g.holds .s = true ↔ (a - b).toInt < 0) ∧ (g.holds .ns = true ↔ 0 ≤ (a - b).toInt)

/-- JMP r/m, near CALL and near RET (45_control_transfer.md R466 to R469). -/
def Obligations.NearTransfersGoToTarget : Prop :=
  ∀ (s u : State), s.closed = true →
    let n := s.vWidth.bytes
    (∀ rm p, locate s.vWidth rm false s = .ok p u →
      let target : Dword := (u.placeValue s.vWidth p).setWidth 32
      (target ≤ s.segs.cs.limit → Goes s (.jmpRmv rm) s.regs s.flags target) ∧
      (s.segs.cs.limit < target → exec (.jmpRmv rm) s = takeExn s u (.gp 0))) ∧
    (∀ i target, CallForm s i target u →
      (s.segs.cs.limit < target → exec i s = takeExn s u (.gp 0)) ∧
      (target ≤ s.segs.cs.limit → ∀ ps v,
        segLocate .ss (s.stackWrap (s.stackPtr - BitVec.ofNat 32 n)) n true u = .ok ps v →
        Leaves s i s (s.moved (-(BitVec.ofNat 32 n))) s.flags.settled target ps
          (s.nextEip.toNat % 2 ^ s.vWidth.bits))) ∧
    (∀ i more ps, RetForm i more → segLocate .ss s.stackPtr n false s = .ok ps u →
      let target := BitVec.ofNat 32 (u.mem.readAt ps)
      (target ≤ s.segs.cs.limit → Goes s i (s.moved (BitVec.ofNat 32 (n + more.toNat))) s.flags target) ∧
      (s.segs.cs.limit < target → exec i s = takeExn s u (.gp 0)))

/-- Far JMP, CALL and RET in Real Mode and Virtual 8086 Mode: CS is loaded with base 16 * selector
(45_control_transfer.md R476 to R479). -/
def Obligations.FarTransfersOutsideProtectedMode : Prop :=
  ∀ (s u : State), s.closed = true → s.protMode = false →
    let z := itemBytes s.os32
    let inCS := fun sel => { s with segs := { s.segs with cs := loaded8086 s s.segs.cs sel } }
    (∀ i sel off, FarForm s .jmp i sel off u →
      (off ≤ s.segs.cs.limit → Leaves s i (inCS sel) s.regs s.flags.settled off [] 0) ∧
      (s.segs.cs.limit < off → exec i s = takeExn s u (.gp 0))) ∧
    (∀ i sel off, FarForm s .call i sel off u →
      (s.segs.cs.limit < off → exec i s = takeExn s u (.gp 0)) ∧
      (off ≤ s.segs.cs.limit → ∀ p1 p2 v,
        locatePushes z 2 1 { u with free := u.free + s.os32.toNat } = .ok [p1, p2] v →
        ∃ t hi, (s.os32 = false → hi = 0) ∧ hi < 65536 ∧ exec i s = .next t ∧
          After (inCS sel) t (s.moved (-(BitVec.ofNat 32 (z * 2)))) s.flags.settled off (p1 ++ p2) ∧
          t.mem = (v.mem.writeAt p1 (hi * 65536 + s.segs.cs.sel.toNat)).writeAt p2 s.nextEip.toNat)) ∧
    (∀ i more, FarRetForm i more →
      (∀ e, segCheck s.segs.ss (.ss 0) s.stackPtr (2 * z) false = some e → exec i s = takeExn s s e) ∧
      (segCheck s.segs.ss (.ss 0) s.stackPtr (2 * z) false = none →
        ∀ offAt selAt, locateItems z 2 0 s = .ok [offAt, selAt] u →
        let off : Dword := BitVec.ofNat 32 (u.mem.readAt offAt)
        (off ≤ s.segs.cs.limit →
          Leaves s i (inCS (BitVec.ofNat 16 (u.mem.readAt selAt))) (s.moved (BitVec.ofNat 32 (2 * z + more.toNat)))
            s.flags.settled off [] 0) ∧
        (s.segs.cs.limit < off → exec i s = takeExn s u (.gp 0))))

/-- IRET. In Real Mode and Virtual 8086 Mode EIP, CS and the flags come from the stack and NMI is no longer in service;
#GP(0) in Virtual 8086 Mode with IOPL below 3 (45_control_transfer.md R488, 10_state.md R82). In Protected Mode (R489)
with NT = 0 the same frame returns to the same level by the tests of R486, with the flags as the privilege allows, or at
CPL 0 with VM = 1 in the image into Virtual 8086 Mode; with NT = 1 it switches back to the task of the back link. In every
mode a stack without room for the three items is #SS(0) before any of them is read. That an IRET that faults keeps NMI in
service is the model's choice (log 42). -/
def Obligations.InterruptReturnRestoresFrame : Prop :=
  ∀ (s u t : State) (offAt selAt imageAt : List Dword), s.closed = true →
    let z := itemBytes s.os32
    let room := fun n => segCheck s.segs.ss (.ss 0) s.stackPtr n false
    let off : Dword := BitVec.ofNat 32 (t.mem.readAt offAt)
    let sel : Word := BitVec.ofNat 16 (t.mem.readAt selAt)
    let popped : Dword := BitVec.ofNat 32 (t.mem.readAt imageAt)
    (s.flags.vm = true → s.flags.iopl ≠ 3 → exec .iret s = takeExn s s (.gp 0)) ∧
    (s.protMode = false → s.flags.vm = false ∨ s.flags.iopl = 3 →
      (∀ e, room (3 * z) = some e → exec .iret s = takeExn s s e) ∧
      (room (3 * z) = none → locateItems z 3 0 s = .ok [offAt, selAt, imageAt] t →
        (off ≤ s.segs.cs.limit →
          Leaves s .iret
            { s with segs := { s.segs with cs := loaded8086 s s.segs.cs sel }, nmiInService := false }
            (s.moved (BitVec.ofNat 32 (3 * z))) (s.loadedFlags popped) off [] 0) ∧
        (s.segs.cs.limit < off → exec .iret s = takeExn s t (.gp 0)))) ∧
    (s.protMode = true → s.flags.nt = false →
      (∀ e, room (3 * z) = some e → exec .iret s = takeExn s s e) ∧
      (room (3 * z) = none → locateItems z 3 0 s = .ok [offAt, selAt, imageAt] t →
        let toV86 := s.os32 = true ∧ popped.getLsbD 17 = true ∧ s.cpl = 0
        (¬ toV86 → ReturnsSameLevel s t .iret sel off (3 * z) (s.loadedFlags popped) false) ∧
        (toV86 → ∀ e, room 36 = some e → exec .iret s = takeExn s t e) ∧
        (toV86 → room 36 = none → ∀ esp ss es ds fs gs w, locateItems 4 6 12 t = .ok [esp, ss, es, ds, fs, gs] w →
          let load := fun (r : Sreg) (ps : List Dword) =>
            loaded8086 s (s.segs.get r) (BitVec.ofNat 16 (w.mem.readAt ps))
          Leaves s .iret
            { s with segs := ⟨load .es es, loaded8086 s s.segs.cs sel, load .ss ss, load .ds ds, load .fs fs, load .gs gs⟩
                     cpl := 3, nmiInService := false }
            { s.regs with esp := BitVec.ofNat 32 (w.mem.readAt esp) } (Flags.ofImage popped) (off &&& 0xFFFF) [] 0))) ∧
    (s.protMode = true → s.flags.nt = true → ∀ link : Word,
      sysRead16 s.tr.base { s with nmiInService := false } = .ok link u →
      let code : Word := link &&& 0xFFFC
      (link.toNat < 4 ∨ link.getLsbD 2 = true → exec .iret s = takeExn s u (.ts code)) ∧
      (4 ≤ link.toNat → link.getLsbD 2 = false → ∀ a d w, findDesc link .ts u = .ok (a, d) w →
        let busy := descS d = false ∧ (descType d = 3 ∨ descType d = 11)
        (¬ busy → exec .iret s = takeExn s w (.ts code)) ∧
        (busy → descP d = false → exec .iret s = takeExn s w (.np code)) ∧
        (busy → descP d = true → ∀ x,
          (taskSwitch link d .iret { w with eip := s.nextEip } = .ok () x → exec .iret s = .next (s.finish x .silent)) ∧
          (∀ e, taskSwitch link d .iret { w with eip := s.nextEip } = .error (.exn e) x →
            exec .iret s = takeExn s x e) ∧
          (∀ e, taskSwitch link d .iret { w with eip := s.nextEip } = .error (.exnNew e) x →
            exec .iret s = takeExnNew x e))))

/-- Far transfers in Protected Mode to the same level (45_control_transfer.md R480 to R483, R486): JMP and CALL to a code
segment or through a call gate, with the tests of gate and descriptor and the return address pushed by CALL in the size of
the operand or of the gate; RET. CS gets the CPL as its RPL. -/
def Obligations.FarTransfersCheckDescriptor : Prop :=
  ∀ (s u v : State), s.closed = true → s.protMode = true →
    let z := itemBytes s.os32
    (∀ kind i sel off, FarForm s kind i sel off u →
      let rpl := sel.extractLsb' 0 2
      let code : Word := sel &&& 0xFFFC
      (sel.toNat < 4 → exec i s = takeExn s u (.gp 0)) ∧
      (4 ≤ sel.toNat → ∀ a d, findDesc sel .gp u = .ok (a, d) v →
        let allowed := descE d = true ∧
          if descC d then (descDpl d).toNat ≤ s.cpl.toNat else rpl.toNat ≤ s.cpl.toNat ∧ descDpl d = s.cpl
        (descS d = true →
          (¬ allowed → exec i s = takeExn s v (.gp code)) ∧
          (allowed → descP d = false → exec i s = takeExn s v (.np code)) ∧
          (allowed → descP d = true → EntersSameLevel s v kind i z sel a d off)) ∧
        (descS d = false → descType d = 4 ∨ descType d = 12 →
          let visible := s.cpl.toNat ≤ (descDpl d).toNat ∧ rpl.toNat ≤ (descDpl d).toNat
          let dest : Word := d.extractLsb' 16 16
          let destCode : Word := dest &&& 0xFFFC
          let at_ : Dword := if descType d = 12 then d.extractLsb' 48 16 ++ d.extractLsb' 0 16
            else (d.extractLsb' 0 16).setWidth 32
          (¬ visible → exec i s = takeExn s v (.gp code)) ∧
          (visible → descP d = false → exec i s = takeExn s v (.np code)) ∧
          (visible → descP d = true → dest.toNat < 4 → exec i s = takeExn s v (.gp 0)) ∧
          (visible → descP d = true → 4 ≤ dest.toNat → ∀ b c w, findDesc dest .gp v = .ok (b, c) w →
            let right := descS c = true ∧ descE c = true ∧ (descDpl c).toNat ≤ s.cpl.toNat ∧
              (kind = .jmp → descC c = true ∨ descDpl c = s.cpl)
            (¬ right → exec i s = takeExn s w (.gp destCode)) ∧
            (right → descP c = false → exec i s = takeExn s w (.np destCode)) ∧
            (right → descP c = true → descC c = true ∨ descDpl c = s.cpl →
              EntersSameLevel s w kind i (if descType d = 12 then 4 else 2) dest b c at_))))) ∧
    (∀ i more, FarRetForm i more →
      (∀ e, segCheck s.segs.ss (.ss 0) s.stackPtr (2 * z) false = some e → exec i s = takeExn s s e) ∧
      (segCheck s.segs.ss (.ss 0) s.stackPtr (2 * z) false = none →
        ∀ offAt selAt, locateItems z 2 0 s = .ok [offAt, selAt] u →
        ReturnsSameLevel s u i (BitVec.ofNat 16 (u.mem.readAt selAt)) (BitVec.ofNat 32 (u.mem.readAt offAt))
          (2 * z + more.toNat) s.flags.settled s.nmiInService))

/-- INT 3, INT n and INTO (45_control_transfer.md R490 to R492). In Real Mode the entry of their vector with the next
instruction as return address (60_exceptions.md R610); in Protected Mode the tests of the gate, its DPL among them, and
the entry through an Intel386 DX gate to the same level (R640, R643); INT n is #GP(0) in Virtual 8086 Mode with IOPL
below 3. What the entry raises they raise themselves (R612): the model's choice for INT 8, where R618 names shutdown
(log 11). -/
def Obligations.SoftwareInterruptsAreDelivered : Prop :=
  ∀ s : State, s.closed = true →
    (s.inReal → ∀ i n, InterruptForm s i n →
      (s.canEnter n → ∃ t, exec i s = .next t ∧ RealEntry s n s.nextEip t) ∧
      (s.idtr.limit.toNat < 4 * n + 3 → n ≠ 8 → n ≠ 13 → exec i s = takeExn s s .df) ∧
      (s.idtr.limit.toNat < 4 * n + 3 → n = 8 ∨ n = 13 → ∃ t, exec i s = .next t ∧ t.run = .shutdown) ∧
      (4 * n + 3 ≤ s.idtr.limit.toNat → ∀ e, s.roomFault 2 3 = some e → exec i s = takeExn s s e)) ∧
    (s.protMode = true → ∀ i n, InterruptForm s i n →
      let code : Word := BitVec.ofNat 16 (8 * n + 2)
      (s.idtr.limit.toNat < 8 * n + 7 → exec i s = takeExn s s (.gp code)) ∧
      (8 * n + 7 ≤ s.idtr.limit.toNat → ∀ x u, sysRead (s.idtr.base + BitVec.ofNat 32 (8 * n)) 8 s = .ok x u →
        let g := BitVec.ofNat 64 x
        let right := descS g = false ∧ descType g ∈ [5, 6, 7, 14, 15]
        (¬ right → exec i s = takeExn s u (.gp code)) ∧
        (right → (descDpl g).toNat < s.cpl.toNat → exec i s = takeExn s u (.gp code)) ∧
        (right → s.cpl.toNat ≤ (descDpl g).toNat → descP g = false → exec i s = takeExn s u (.np code))) ∧
      (∀ g a d v frame v' ps x w, GateFound s n g a d v → s.cpl.toNat ≤ (descDpl g).toNat →
        locatePushes 4 3 1 { v with free := v.free + 1 } = .ok frame v' → Accessed a d v' ps x w →
        ∃ t, exec i s = .next t ∧ GateEntry s g d w.mem ps x frame s.flags.rf s.nextEip none t)) ∧
    (s.flags.vm = true → s.flags.iopl ≠ 3 → ∀ n, exec (.intImm8 n) s = takeExn s s (.gp 0)) ∧
    (s.flags.of = false → Sets s .into s.regs s.flags)

/-! Exceptions. -/

/-- Taking an exception in Real Mode (60_exceptions.md R601, R610, R618, R690): the entry of its vector with EIP of the
instruction; exception 8 where the table is too short, and shutdown where that does not fit either. Shutdown leaves SS
and ESP as they were, and of every segment register the limit and the attributes (10_state.md R53); that the register may
then be as it was or as a load of any selector leaves it is the model's choice (log 20). -/
def Obligations.RealModeDeliverySavesAndJumps : Prop :=
  ∀ (s u : State) (e : Exn), s.inReal → s.closed = true → u.closed = true → e.vector ≠ 14 →
    let v := (s.afterFault u e).idle
    let short := s.idtr.limit.toNat < 4 * e.vector + 3
    (v.canEnter e.vector → ∃ t, takeExn s u e = .next t ∧ RealEntry v e.vector s.eip t) ∧
    (short → e.vector ≠ 13 → e.vector ≠ 8 → v.canEnter 8 → ∃ t, takeExn s u e = .next t ∧ RealEntry v 8 s.eip t) ∧
    (short → s.idtr.limit.toNat < 35 → ∃ t, takeExn s u e = .next t ∧ t.run = .shutdown ∧ t.regs.esp = s.regs.esp ∧
      t.segs.ss = s.segs.ss ∧
      ∀ sr, t.segs.get sr = s.segs.get sr ∨ ∃ sel, t.segs.get sr = loaded8086 s (s.segs.get sr) sel)

/-- Taking an exception in Protected Mode through an Intel386 DX interrupt or trap gate to the same level
(60_exceptions.md R601, R603, R640, R643, R684): EFLAGS with RF = 1, CS, EIP and the error code pushed, the flags cleared,
CS:EIP from the gate. A page fault leaves its linear address in CR2 (10_state.md R64, 60_exceptions.md R617). That the
pushes of a delivery match no data breakpoint is the model's choice (log 30). -/
def Obligations.ProtectedDeliverySavesAndJumps : Prop :=
  ∀ (s u v v' w : State) (e : Exn) (g : Descriptor) (a : Dword) (d : Descriptor) (frame : List (List Dword))
    (ps : List Dword) (k : Nat),
    s.protMode = true → s.closed = true → u.closed = true →
    let x := (s.afterFault u e).idle
    GateFound { x with free := x.free + e.isPage.toNat } e.vector g a d v →
    locatePushes 4 (3 + (e.code 0).toList.length) 1 { v with free := v.free + 1 + (e.code 0).toList.length }
      = .ok frame v' →
    Accessed a d v' ps k w →
    ∃ t open_, takeExn s u e = .next t ∧ GateEntry x g d w.mem ps k frame true s.eip (e.code open_) t ∧
      t.dr6 = x.dr6 ∧ ∀ lin p wr us, e = .pf lin p wr us → t.cr2 = lin

/-! High-level instructions. -/

/-- BOUND within its bounds changes nothing, outside them takes #BR (46_high_level.md R500); ENTER pushes the frame
pointer, copies the display and makes the new frame (R501); LEAVE takes it down (R502). That a 32-bit frame made of a
16-bit stack pointer is zero-extended is the model's choice (log 43). -/
def Obligations.BoundEnterLeaveComplete : Prop :=
  ∀ (s u v : State), s.closed = true →
    let w := s.vWidth
    let n := w.bytes
    (∀ r ea loAt hiAt, locateEa ea 0 n false s = .ok loAt u → locateEa ea n n false u = .ok hiAt v →
      let bound := fun ps => (BitVec.ofNat w.bits (v.mem.readAt ps)).toInt
      let inside := bound loAt ≤ (s.regs.read w r).toInt ∧ (s.regs.read w r).toInt ≤ bound hiAt
      (inside → Sets s (.bound r ea) s.regs s.flags) ∧ (¬ inside → exec (.bound r ea) s = takeExn s v .br)) ∧
    (∀ size level first display last t, pushLocate n 1 s = .ok first u →
      let deep := level.toNat % 32
      let frame := s.stackWrap (s.stackPtr - BitVec.ofNat 32 n)
      let down := BitVec.ofNat 32 (n * (deep - 1))
      let base := if s.segs.ss.big then s.regs.ebp - down
        else setLow16 s.regs.ebp ((s.regs.ebp - down).extractLsb' 0 16)
      let pushed := n * (if deep = 0 then 1 else deep + 1)
      locateDisplay n (deep - 1) 1 u = .ok display v →
      (if deep = 0 then last = [] ∧ t = v else pushLocate n (deep + 1) v = .ok last t) →
      ∃ r, exec (.enter size level) s = .next r ∧
        After s r (({ s.regs with
            esp := s.stackSet (s.stackPtr + (-(BitVec.ofNat 32 pushed + size.setWidth 32))), ebp := base } : Regs).write
            w .ebp (frame.setWidth w.bits)) s.flags.settled s.nextEip
          (first ++ (display.map Prod.snd).flatten ++ last) ∧
        r.mem = (display.foldl (fun m x => m.writeAt x.2 (m.readAt x.1))
          (t.mem.writeAt first (s.regs.read w .ebp).toNat)).writeAt last frame.toNat) ∧
    (∀ ps, segLocate .ss (s.stackWrap s.regs.ebp) n false s = .ok ps u →
      Sets s .leave (({ s.regs with esp := s.stackSet (s.stackWrap s.regs.ebp + BitVec.ofNat 32 n) } : Regs).write
        w .ebp (BitVec.ofNat w.bits (u.mem.readAt ps))) s.flags)

/-! System instructions. -/

/-- SGDT and SIDT store six bytes, the last of them any value with a 16-bit operand size; LGDT and LIDT load limit and
base, of 24 bits with a 16-bit operand size (47_protection_model.md R511 to R514). -/
def Obligations.TableRegistersLoadAndStore : Prop :=
  ∀ (s u v : State) (ea : EA), s.closed = true →
    (∀ i table, (i, table) ∈ [(Instr.sgdt ea, s.gdtr), (Instr.sidt ea, s.idtr)] →
      ∀ p1 p2, locateEa ea 0 2 true s = .ok p1 u → locateEa ea 2 4 true u = .ok p2 v →
      ∃ t base, (s.os32 = true → base = table.base) ∧ base.setWidth 24 = table.base.setWidth 24 ∧ exec i s = .next t ∧
        After s t s.regs s.flags.settled s.nextEip (p1 ++ p2) ∧
        t.mem = (v.mem.writeAt p1 table.limit.toNat).writeAt p2 base.toNat) ∧
    (s.mayRun → ∀ p1 p2, locateEa ea 0 2 false s = .ok p1 u → locateEa ea 2 4 false u = .ok p2 v →
      let base : Dword := BitVec.ofNat 32 (v.mem.readAt p2)
      let table : TableReg :=
        { base := if s.os32 then base else base &&& 0x00FFFFFF, limit := BitVec.ofNat 16 (v.mem.readAt p1) }
      SetsIn s (.lgdt ea) { s with gdtr := table } s.regs s.flags ∧
      SetsIn s (.lidt ea) { s with idtr := table } s.regs s.flags)

/-- LLDT and LTR at CPL 0 (47_protection_model.md R517, R518): the tests of the descriptor, what is loaded, and the busy
bit that LTR sets in memory. -/
def Obligations.LdtTaskRegistersLoadAndStore : Prop :=
  ∀ (s u : State) (rm : Rm) (p : Place),
    s.closed = true → s.protMode = true → s.cpl = 0 → locate .w16 rm false s = .ok p u →
    let sel : Word := u.placeValue .w16 p
    let code : Word := sel &&& 0xFFFC
    (sel.toNat < 4 →
      SetsIn s (.lldt rm) { s with ldtr := { s.ldtr with sel := sel, valid := false } } s.regs s.flags ∧
      exec (.ltr rm) s = takeExn s u (.gp 0)) ∧
    (4 ≤ sel.toNat → sel.getLsbD 2 = true →
      exec (.lldt rm) s = takeExn s u (.gp code) ∧ exec (.ltr rm) s = takeExn s u (.gp code)) ∧
    (4 ≤ sel.toNat → sel.getLsbD 2 = false → ∀ a d v, findDesc sel .gp u = .ok (a, d) v →
      let ldt := descS d = false ∧ descType d = 2
      let tss := descS d = false ∧ (descType d = 1 ∨ descType d = 9)
      (¬ ldt → exec (.lldt rm) s = takeExn s v (.gp code)) ∧ (¬ tss → exec (.ltr rm) s = takeExn s v (.gp code)) ∧
      (ldt → descP d = false → exec (.lldt rm) s = takeExn s v (.np code)) ∧
      (tss → descP d = false → exec (.ltr rm) s = takeExn s v (.np code)) ∧
      (ldt → descP d = true →
        SetsIn s (.lldt rm) { s with ldtr := { sel := sel, valid := true, base := descBase d, limit := descLimit d } }
          s.regs s.flags) ∧
      (tss → descP d = true → ∀ ps t, linLocate (a + 5) 1 true true v = .ok ps t →
        Leaves s (.ltr rm)
          { s with tr := { sel := sel, base := descBase d, limit := descLimit d, is386 := decide (descType d = 9) } }
          s.regs s.flags.settled s.nextEip ps (BitVec.ofNat 8 (t.mem.readAt ps) ||| 2).toNat))

/-- ARPL, VERR, VERW, LAR and LSL in Protected Mode answer through ZF (47_protection_model.md R519 to R524). That
an ARPL without adjustment stores nothing at an operand located for writing is the model's choice (log 41). -/
def Obligations.PointerTestsSetZero : Prop :=
  ∀ (s u : State) (rm : Rm) (p : Place) (write : Bool),
    s.closed = true → s.protMode = true → locate .w16 rm write s = .ok p u →
    let sel : Word := u.placeValue .w16 p
    let zf := fun b => { s.flags with zf := b }
    (write = true → ∀ r,
      let rpl : BitVec 2 := (s.regs.read .w16 r).setWidth 2
      ((sel.setWidth 2 : BitVec 2).toNat < rpl.toNat →
        Writes s (.arpl rm r) .w16 p ((sel &&& 0xFFFC) ||| rpl.setWidth 16) (zf true)) ∧
      (rpl.toNat ≤ (sel.setWidth 2 : BitVec 2).toNat → Sets s (.arpl rm r) s.regs (zf false))) ∧
    (write = false →
      let at_ := 8 * (sel.toNat / 8)
      let inTable := if sel.getLsbD 2 then s.ldtr.valid = true ∧ at_ + 7 ≤ s.ldtr.limit.toNat
        else at_ + 7 ≤ s.gdtr.limit.toNat
      (sel.toNat < 4 ∨ ¬ inTable → ∀ r,
        Sets s (.verr rm) s.regs (zf false) ∧ Sets s (.verw rm) s.regs (zf false) ∧
        Sets s (.lar r rm) s.regs (zf false) ∧ Sets s (.lsl r rm) s.regs (zf false)) ∧
      (4 ≤ sel.toNat → inTable → ∀ x v,
        sysRead ((if sel.getLsbD 2 then s.ldtr.base else s.gdtr.base) + BitVec.ofNat 32 at_) 8 u = .ok x v →
        let d := BitVec.ofNat 64 x
        let seen := (descS d && descE d && descC d) ||
          (decide (s.cpl.toNat ≤ (descDpl d).toNat) && decide (sel.toNat % 4 ≤ (descDpl d).toNat))
        let known := fun types => seen && (descS d || types.contains (descType d))
        Sets s (.verr rm) s.regs (zf (seen && descS d && (!descE d || descW d))) ∧
        Sets s (.verw rm) s.regs (zf (seen && descS d && !descE d && descW d)) ∧ ∀ r,
        Sets s (.lar r rm) (if known [1, 2, 3, 4, 5, 9, 11, 12] then
            s.regs.write s.vWidth r ((d.extractLsb' 32 32 &&& 0x00F0FF00).setWidth s.vWidth.bits) else s.regs)
          (zf (known [1, 2, 3, 4, 5, 9, 11, 12])) ∧
        Sets s (.lsl r rm) (if known [1, 2, 3, 9, 11] then
            s.regs.write s.vWidth r ((descLimit d).setWidth s.vWidth.bits) else s.regs)
          (zf (known [1, 2, 3, 9, 11]))))

/-- MOV of control, debug and test registers where they may run (47_protection_model.md R530 to R535): reads show the
defined bits, writes store them; CR1, CR4 to CR7 and TR0 to TR5 are #UD, a debug register under GD is #DB; CR0 with PG
and without PE is refused (93_implementation_defined.md U12, log 12), DR4 and DR5 have no effect given (log 15). -/
def Obligations.SpecialRegistersReadAndWrite : Prop :=
  ∀ s : State, s.closed = true → s.mayRun →
    (∀ i r v mask, SpecialRead s i r v mask →
      ∃ x any, Shows x v mask ∧ Sets s i (s.regs.write .w32 r x) (s.flags.freeStatus any)) ∧
    (∀ i r s', SpecialWrite s (s.regs.get r) r i s' → ∃ any, SetsIn s i s' s.regs (s.flags.freeStatus any)) ∧
    (∀ r, ∃ t, exec (.movCrR32 3 r) s = .next t ∧ t.tlb = List.replicate 32 none) ∧
    (∀ r n, n ∉ ([0, 2, 3] : List (BitVec 3)) →
      exec (.movR32Cr r n) s = takeExn s s .ud ∧ exec (.movCrR32 n r) s = takeExn s s .ud) ∧
    (∀ r n, n ∉ ([6, 7] : List (BitVec 3)) →
      exec (.movR32Tr r n) s = takeExn s s .ud ∧ exec (.movTrR32 n r) s = takeExn s s .ud) ∧
    (∀ r n, s.dr7.getLsbD 13 = true →
      exec (.movR32Dr r n) s = takeExn s s .db ∧ exec (.movDrR32 n r) s = takeExn s s .db) ∧
    (∀ r n, s.dr7.getLsbD 13 = false → n = 4 ∨ n = 5 →
      exec (.movR32Dr r n) s = .refused .reservedDebugRegister ∧
      exec (.movDrR32 n r) s = .refused .reservedDebugRegister) ∧
    (∀ r, (s.regs.get r).getLsbD 31 = true → (s.regs.get r).getLsbD 0 = false →
      exec (.movCrR32 0 r) s = .refused .pagingWithoutProtection)

/-- LMSW, which cannot clear PE, CLTS, and the TLB commands of a write to TR6 with paging off (47_protection_model.md
R526, R528, 20_memory.md R165). The model's choices: the command is refused with paging on and where several entries
match (log 17), and a lookup looks at valid entries only (log 36). -/
def Obligations.MachineStatusWordMoves : Prop :=
  ∀ s : State, s.closed = true → s.mayRun →
    (∀ rm p u, locate .w16 rm false s = .ok p u →
      let v : Word := u.placeValue .w16 p
      SetsIn s (.lmsw rm)
        { s with cr0 := { s.cr0 with pe := s.cr0.pe || v.getLsbD 0, mp := v.getLsbD 1, em := v.getLsbD 2,
                                     ts := v.getLsbD 3 } } s.regs s.flags) ∧
    SetsIn s .clts { s with cr0 := { s.cr0 with ts := false } } s.regs s.flags ∧
    (s.cr0.pg = true → ∀ r, exec (.movTrR32 6 r) s = .refused .tlbTestWhilePaging) ∧
    (s.cr0.pg = false → ∀ r,
      let v := s.regs.get r
      let page := v.extractLsb' 12 20
      (v.getLsbD 0 = false → ∃ any d u w, ∃ way < 4,
        (v.getLsbD 10 ≠ v.getLsbD 9 → d = v.getLsbD 10) ∧ (v.getLsbD 8 ≠ v.getLsbD 7 → u = v.getLsbD 8) ∧
        (v.getLsbD 6 ≠ v.getLsbD 5 → w = v.getLsbD 6) ∧
        (s.tr7.getLsbD 4 = true → way = (s.tr7.extractLsb' 2 2).toNat) ∧
        SetsIn s (.movTrR32 6 r)
          { s with tr6 := v &&& 0xFFFFFFE1
                   tlb := s.tlb.set (4 * (page.extractLsb' 0 3).toNat + way) (if v.getLsbD 11 then
                     some { tag := page, phys := s.tr7.extractLsb' 12 20, d := d, u := u, w := w } else none) }
          s.regs (s.flags.freeStatus any)) ∧
      (v.getLsbD 0 = true →
        (lookupHits s.tlb v = [] → ∃ any a b, b.getLsbD 4 = false ∧ SetsIn s (.movTrR32 6 r)
          { s with tr6 := a &&& 0xFFFFFFE1, tr7 := b &&& 0xFFFFF01C } s.regs (s.flags.freeStatus any)) ∧
        (∀ k e, lookupHits s.tlb v = [(k, e)] → ∃ any tr6 tr7,
          tr6.extractLsb' 12 20 = page ∧ tr6.getLsbD 11 = true ∧ tr6.getLsbD 10 = e.d ∧ tr6.getLsbD 9 = !e.d ∧
          tr6.getLsbD 8 = e.u ∧ tr6.getLsbD 7 = !e.u ∧ tr6.getLsbD 6 = e.w ∧ tr6.getLsbD 5 = !e.w ∧
          tr7.extractLsb' 12 20 = e.phys ∧ tr7.getLsbD 4 = true ∧ (tr7.extractLsb' 2 2).toNat = k ∧
          SetsIn s (.movTrR32 6 r) { s with tr6 := tr6, tr7 := tr7 } s.regs (s.flags.freeStatus any)) ∧
        (1 < (lookupHits s.tlb v).length → exec (.movTrR32 6 r) s = .refused .tlbLookupAmbiguous)))

/-- CR0.PE (10_state.md R61): 0 after reset; MOV CR0 loads it, LMSW can only set it; no instruction but MOV CR0 resets
it, and no other but LMSW sets it. -/
def Obligations.ProtectedModeBitStays : Prop :=
  State.reset.cr0.pe = false ∧
  (∀ (s : State) (r : Reg), s.mayRun → ((s.regs.get r).getLsbD 31 = false ∨ (s.regs.get r).getLsbD 0 = true) →
    ∃ t, exec (.movCrR32 0 r) s = .next t ∧ t.cr0.pe = (s.regs.get r).getLsbD 0) ∧
  (∀ (s u : State) (rm : Rm) (p : Place), s.closed = true → s.mayRun → locate .w16 rm false s = .ok p u →
    ∃ t, exec (.lmsw rm) s = .next t ∧ t.cr0.pe = (s.cr0.pe || (u.placeValue .w16 p).getLsbD 0)) ∧
  (∀ (s t : State) (i : Instr), exec i s = .next t →
    (s.cr0.pe = true → t.cr0.pe = false → ∃ r, i = .movCrR32 0 r) ∧
    (s.cr0.pe = false → t.cr0.pe = true → (∃ r, i = .movCrR32 0 r) ∨ ∃ rm, i = .lmsw rm))

/-- The privileged instructions take #GP(0) at CPL 1 to 3 in Protected Mode and in Virtual 8086 Mode
(47_protection_model.md R510). -/
def Obligations.PrivilegeTrapsRaise : Prop :=
  ∀ s : State, s.cr0.pe = true → s.cpl ≠ 0 →
    (∀ i, Privileged i → exec i s = takeExn s s (.gp 0)) ∧
    (s.flags.vm = false → ∀ rm, exec (.lldt rm) s = takeExn s s (.gp 0) ∧ exec (.ltr rm) s = takeExn s s (.gp 0))

/-- The instructions of Protected Mode take #UD in Real Mode and in Virtual 8086 Mode (30_encoding.md R247). -/
def Obligations.ProtectedModeOnlyRaise : Prop :=
  ∀ (s : State) (i : Instr), ProtectedOnly i → s.cr0.pe = false ∨ s.flags.vm = true → exec i s = takeExn s s .ud

/-- HLT, WAIT and ESC (48_processor_control.md R541 to R543). The model's choices: a WAIT that still waits keeps RF and
arms no single-step trap (log 37), and an ESC that would go to the coprocessor is refused (log 16). -/
def Obligations.ProcessorControlCompletes : Prop :=
  ∀ s : State, s.closed = true →
    (s.mayRun → SetsIn s .hlt { s with run := .halted } s.regs s.flags) ∧
    (s.cr0.ts = true → s.cr0.mp = true → exec .wait s = takeExn s s .nm) ∧
    (s.cr0.ts = false ∨ s.cr0.mp = false →
      (s.pins.busy = true → ∃ t, exec .wait s = .next t ∧ After s.noTrap t s.regs s.flags s.eip []) ∧
      (s.pins.busy = false → s.pins.error = true → exec .wait s = takeExn s s .mf) ∧
      (s.pins.busy = false → s.pins.error = false → Sets s .wait s.regs s.flags)) ∧
    (∀ op ext rm,
      (s.cr0.em = true ∨ s.cr0.ts = true → exec (.esc op ext rm) s = takeExn s s .nm) ∧
      (s.cr0.em = false → s.cr0.ts = false → exec (.esc op ext rm) s = .refused .escWithoutEmulation))

/-- A prefix records itself in the instruction in progress and changes nothing else (30_encoding.md R202 to R207). That a
prefix is an instruction of its own, which records itself, is the model's choice (log 6), and so is that of several
segment overrides or repeat prefixes the last one holds (log 39). -/
def Obligations.PrefixesRecordThemselves : Prop :=
  ∀ (s : State) (i : Instr) (d : InProgress), PrefixForm s.dec i d → exec i s = .next { s with dec := d }

/-! Memory access. -/

/-- The checks of a data access (20_memory.md R130): a usable segment register, the right kind of access, and every
byte inside the segment. That a write asks only for a writable register, so that one with both code and writable, as
Real Mode and Virtual 8086 Mode hold and as CS keeps once PE is set, passes it, is the model's choice (log 32); the
pseudocode of R130 also raises the exception for a write through a code segment. -/
def Obligations.SegmentChecksRaise : Prop :=
  ∀ (seg : SegReg) (f : Exn) (off : Dword) (n : Nat) (write : Bool), 0 < n →
    let inside := fun b : Nat => if seg.expandDown then
        seg.limit.toNat < b ∧ b ≤ (if seg.big then 0xFFFFFFFF else 0xFFFF)
      else b ≤ seg.limit.toNat
    let right := if write then seg.writable = true else seg.code = false ∨ seg.readable = true
    (seg.valid = false → segCheck seg f off n write = some (.gp 0)) ∧
    (seg.valid = true → right → (∀ k < n, inside (off.toNat + k)) → segCheck seg f off n write = none) ∧
    (seg.valid = true → ¬ (right ∧ ∀ k < n, inside (off.toNat + k)) → segCheck seg f off n write = some f)

/-- Translation with paging on (20_memory.md R141 to R150). Where the TLB has no entry for the page, or a clean one for a
write: #PF where a table entry is not present or does not allow the access; else the page address from the page table
entry, A and D bits set, and the TLB filled. Where it has an entry that serves the access: its page address, or #PF where
it does not allow the access. That a walk that faults changes nothing, no A bit among it, is the model's choice
(93_implementation_defined.md U16, log 31). -/
def Obligations.PageWalkTranslatesOrFaults : Prop :=
  ∀ (s : State) (lin : Dword) (write sys : Bool), s.closed = true → s.tlb.length = 32 → s.cr0.pg = true →
    let user := decide (s.cpl = 3) && !sys
    let cached := tlbMatches s.tlb (lin.extractLsb' 12 20)
    (cached = [] ∨ (∃ e, cached = [e] ∧ write = true ∧ e.d = false) →
      let pdeAt := addrRun (s.cr3 ++ lin.extractLsb' 22 10 ++ 0#2) 4
      let pde := BitVec.ofNat 32 (s.mem.readAt pdeAt)
      let pteAt := addrRun (pde.extractLsb' 12 20 ++ lin.extractLsb' 12 10 ++ 0#2) 4
      let pte := BitVec.ofNat 32 (s.mem.readAt pteAt)
      let present := pde.getLsbD 0 = true ∧ pte.getLsbD 0 = true
      let allowed := user = true → (pde.getLsbD 2 = true ∧ pte.getLsbD 2 = true) ∧
        (write = true → pde.getLsbD 1 = true ∧ pte.getLsbD 1 = true)
      (¬ present → translate lin write sys s = .error (.exn (.pf lin false write user)) s) ∧
      (present → ¬ allowed → translate lin write sys s = .error (.exn (.pf lin true write user)) s) ∧
      (present → allowed → ∃ t,
        translate lin write sys s = .ok (pte.extractLsb' 12 20 ++ lin.extractLsb' 0 12) t ∧ t.regs = s.regs ∧
        t.mem = (s.mem.writeAt pdeAt (pde ||| 0x20).toNat).writeAt pteAt
          (pte ||| 0x20 ||| (if write then 0x40 else 0)).toNat ∧
        some { tag := lin.extractLsb' 12 20, phys := pte.extractLsb' 12 20, d := pte.getLsbD 6 || write,
               u := pde.getLsbD 2 && pte.getLsbD 2, w := pde.getLsbD 1 && pte.getLsbD 1 } ∈ t.tlb)) ∧
    (∀ e, cached = [e] → write = false ∨ e.d = true →
      let allowed := user = true → e.u = true ∧ (write = true → e.w = true)
      (allowed → translate lin write sys s = .ok (e.phys ++ lin.extractLsb' 0 12) s) ∧
      (¬ allowed → translate lin write sys s = .error (.exn (.pf lin true write user)) s))

/-! The machine. -/

/-- What reset leaves (70_reset_and_hazards.md R700, 10_state.md R90, R91, R67). -/
def Obligations.ResetStateValues : Prop :=
  let s := State.reset
  s.flags.image = 0x00000002 ∧ s.eip = 0x0000FFF0 ∧ s.cpl = 0 ∧
  s.cr0.pg = false ∧ s.cr0.ts = false ∧ s.cr0.em = false ∧ s.cr0.mp = false ∧ s.cr0.pe = false ∧
  s.segs.cs.sel = 0xF000 ∧ s.segs.cs.base = 0xFFFF0000 ∧
  (∀ r, (s.segs.get r).limit = 0xFFFF ∧ (r ≠ .cs → (s.segs.get r).sel = 0 ∧ (s.segs.get r).base = 0)) ∧
  s.regs.edx.extractLsb' 8 8 = 0x03 ∧ s.idtr = ⟨0, 0x03FF⟩ ∧ s.dr7.extractLsb' 0 8 = 0 ∧ s.run = .running ∧
  s.nmiPending = false ∧ s.nmiInService = false ∧ s.inhibit = false ∧ s.prefetch = []

/-- The invariant holds after reset. -/
def Obligations.ResetInvariant : Prop := Inv State.reset

/-- Every step keeps the invariant. -/
def Obligations.InvariantKept : Prop := ∀ s t : State, Inv s → step s = .next t → Inv t

/-- Decoding what the encoder writes gives the instruction back, whatever follows, under both sizes of operand and
address. -/
def Obligations.DecodeEncodeAgree : Prop :=
  ∀ (os as : Bool) (i : Instr) (rest : List Byte), i.wf os as = true →
    decode os as (encode os as i ++ rest) = .ok (i, rest)

/-- A step with nothing due at its boundary runs what is decoded at CS:EIP: the bytes it takes are checked, counted,
and a prefix is followed by the rest of the instruction (30_encoding.md R240, 60_exceptions.md R630); with paging off and
nothing older queued the bytes decoded are those of memory from CS:EIP to the limit of CS, at most 15
(20_memory.md R131, 30_encoding.md R208). That a prefix is executed by itself, with the rest of the instruction in the same
step, is the model's choice (log 6). -/
def Obligations.StepRunsDecoded : Prop :=
  ∀ (s u : State) (i : Instr) (rest : List Byte), s.run = .running → s.inputs = [] → s.masters = [] → s.map = [] →
    s.pend = ⟨false, false, 0, 0⟩ → bpEnabled s.dr7 = 0 → s.dec = InProgress.empty → s.prefetch = [] →
    (s.nmiPending = false ∨ s.nmiInService = true ∨ s.inhibit = true) →
    (s.pins.intr = false ∨ s.flags.ifl = false ∨ s.inhibit = true) →
    let s1 := { s with inhibit := false }
    let n := (fetchWindow s1).length - rest.length
    (decode s.os32 s.as32 (fetchWindow s1) = .ok (i, rest) → touchBytes n 0 s1 = .ok () u →
      let t := { u with dec := { u.dec with len := n } }
      (i.isPrefix = false → step s = exec i t) ∧
      (i.isPrefix = true → ∀ t', exec i t = .next t' → step s = runPrefixed 15 t')) ∧
    (s.cr0.pg = false → ∃ m ≤ 15,
      fetchWindow s1 = (List.range m).map (fun k => s.mem.read (s.segs.cs.base + (s.eip + BitVec.ofNat 32 k)).toNat) ∧
      (∀ k < m, s.eip + BitVec.ofNat 32 k ≤ s.segs.cs.limit) ∧
      (m < 15 → s.segs.cs.limit < s.eip + BitVec.ofNat 32 m))

/-- What a step takes at a boundary in Real Mode before the next instruction (60_exceptions.md R621, R622, R630, R682):
the single-step trap with DR6.BS set, else NMI unless one is in service, else INTR if IF is set, also in the halted
state, which goes on for ever without them. In shutdown only NMI is taken, if the table and SP leave room for it (R690).
An instruction notes the data breakpoints it matched if one of them is enabled: all that matched in DR6, the enabled ones
as pending (R683); those pending under GE or LE are reported at the next boundary, with the single step (R686). That the
traps reported are then no longer pending is the model's choice (log 23), and so is that nothing is pending any more of a
data breakpoint reported (log 22). -/
def Obligations.BoundaryEventsAreTaken : Prop :=
  (∀ s : State, s.inReal → s.closed = true → s.inputs = [] → s.inhibit = false →
    bpEnabled s.dr7 = 0 → s.dec = InProgress.empty → s.pend.bt = false → s.pend.data = 0 →
    let awake := { s with run := .running }
    let served := { awake with nmiPending := false, nmiInService := true }
    (s.run ≠ .shutdown →
      (s.pend.bs = true → s.canEnter 1 → ∃ t, step s = .next t ∧
        RealEntry { awake with dr6 := { s.dr6 with bs := true }, pend := { s.pend with bs := false } } 1 s.eip t) ∧
      (s.pend.bs = false → s.nmiPending = true → s.nmiInService = false → s.canEnter 2 → ∃ t, step s = .next t ∧
        RealEntry served 2 s.eip t) ∧
      (s.pend.bs = false → s.nmiPending = false ∨ s.nmiInService = true →
        (s.pins.intr = true → s.flags.ifl = true → s.canEnter s.pins.vector.toNat → ∃ t, step s = .next t ∧
          RealEntry awake s.pins.vector.toNat s.eip t) ∧
        (s.run = .halted → s.pins.intr = false ∨ s.flags.ifl = false → step s = .next s))) ∧
    (s.run = .shutdown →
      let room := 0x17 ≤ s.idtr.limit.toNat ∧ 5 < (s.regs.read .w16 .esp).toNat
      (s.nmiPending = true → s.nmiInService = false → room → s.canEnter 2 → ∃ t, step s = .next t ∧
        RealEntry served 2 s.eip t) ∧
      (s.nmiPending = false ∨ s.nmiInService = true ∨ ¬ room → step s = .next s))) ∧
  (∀ (s t : State) (d : Done),
    let on := t.dec.hits &&& bpEnabled t.dr7
    let u := s.finish t d
    (on = 0 → u.dr6 = t.dr6 ∧ u.pend.data = t.pend.data) ∧
    (on ≠ 0 → u.pend.data = t.pend.data ||| on ∧
      ∀ i < 4, t.dec.hits.getLsbD i = true ∨ t.dr6.b.getLsbD i = true → u.dr6.b.getLsbD i = true)) ∧
  (∀ s : State, s.inReal → s.closed = true → s.inputs = [] → s.run ≠ .shutdown → s.inhibit = false →
    s.dec = InProgress.empty → bpUndefined s.dr7 &&& bpEnabled s.dr7 = 0 →
    s.executionMatches &&& bpEnabled s.dr7 = 0 → s.pend.bt = false →
    s.pend.data ≠ 0 → s.pend.data &&& ~~~s.pend.exact = 0 → s.canEnter 1 →
    let dr6 := { s.dr6 with b := s.dr6.b ||| s.pend.data, bs := s.dr6.bs || s.pend.bs }
    ∃ t, step s = .next t ∧ t.dr6 = dr6 ∧ t.pend = ⟨false, false, 0, 0⟩ ∧
      RealEntry { s with run := .running, dr6 := dr6, pend := ⟨false, false, 0, 0⟩ } 1 s.eip t)

/-- A task switch past its commit point leaves TR on the new TSS with its base and limit, TS set, and the local
breakpoints of the old task disabled (60_exceptions.md R670, R673); with paging off the old TSS holds what was saved, the
busy bits and the back link are as R670 and R672 say, and EIP, EFLAGS, the general registers, the selectors, LDTR and CR3
come from the new TSS (R671). Every other byte is unchanged, but for the type bytes of the descriptors that the segment
registers then name, where the A bit may have been set (20_memory.md R137), which VM = 1 leaves alone too (R674). -/
def Obligations.TaskSwitchCommits : Prop :=
  ∀ (s t : State) (sel : Word) (d : Descriptor) (kind : SwitchKind),
    (taskSwitch sel d kind s = .ok () t ∨ ∃ e, taskSwitch sel d kind s = .error (.exnNew e) t) →
    let is386 := decide (descType d = 9 ∨ descType d = 11)
    t.tr = { sel := sel, base := descBase d, limit := descLimit d, is386 := is386 } ∧
    t.cr0 = { s.cr0 with ts := true } ∧ t.dr7 = s.dr7 &&& ~~~(0x155 : Dword) ∧
    (kind = .call ∨ kind = .int → t.flags.nt = true) ∧ (t.flags.vm = true → t.cpl = 3) ∧
    (s.closed = true → s.cr0.pg = false → ∃ any, LoadedFrom s t d kind (s.switchedMem sel d kind any) is386)

/-- Words written out from the encodings of 30_encoding.md decode to the instructions they stand for. -/
def Obligations.DecodedWordsAreTheirInstructions : Prop :=
  decode true true [0x8D, 0x44, 0x88, 0x10] = .ok (.lea .eax (.mem32 (some .eax) (some (.ecx, 2)) 0x10), []) ∧
  decode true true [0x0F, 0xB6, 0xC3] = .ok (.movzxRvRm8 .eax (.reg .ebx), []) ∧
  decode true true [0x0F, 0x01, 0x13] = .ok (.lgdt (.mem32 (some .ebx) none 0), []) ∧
  decode true true [0x83, 0xE9, 0xFF] = .ok (.subRmvSimm8 (.reg .ecx) 0xFF, []) ∧
  decode false false [0xC5, 0x37] = .ok (.lds .esi (.mem16 (some .bx) 0), []) ∧
  decode false false [0x8B, 0x46, 0xFE] = .ok (.movRvRmv .eax (.mem (.mem16 (some .bp) 0xFFFE)), []) ∧
  decode false true [0xC8, 0x10, 0x00, 0x02] = .ok (.enter 0x10 2, []) ∧
  decode false true [0x9A, 0x34, 0x12, 0x78, 0x56] = .ok (.callPtr 0x1234 0x5678, []) ∧
  decode true false [0x0F, 0x8C, 0x00, 0x01, 0x00, 0x00, 0x90] = .ok (.jlRelv 0x100, [0x90])
end

