-- ==== Sys2Proof/Laws/Monad.lean ====
section
/-! SUPPORT. How the monad of a meaning computes: the equations by which a proof runs a meaning step by step. -/

namespace Sys2Proof.Machine

variable {α β : Type}

@[simp] theorem M.pure_apply (a : α) (s : State) : (pure a : M α) s = .ok a s := rfl

theorem M.bind_apply (x : M α) (f : α → M β) (s : State) :
    (x >>= f) s = match x s with
      | .ok a t => f a t
      | .error e t => .error e t := by
  simp only [bind, EStateM.bind]
  cases x s <;> rfl

theorem M.bind_ok {x : M α} {s t : State} {a : α} (h : x s = .ok a t) (f : α → M β) : (x >>= f) s = f a t := by
  simp [M.bind_apply, h]

theorem M.bind_error {x : M α} {s t : State} {e : Trap} (h : x s = .error e t) (f : α → M β) :
    (x >>= f) s = .error e t := by
  simp [M.bind_apply, h]

/-- A sequence completes only if both parts do. -/
theorem M.bind_eq_ok {x : M α} {f : α → M β} {s t : State} {b : β} (h : (x >>= f) s = .ok b t) :
    ∃ a u, x s = .ok a u ∧ f a u = .ok b t := by
  rw [M.bind_apply] at h
  split at h
  · exact ⟨_, _, ‹_›, h⟩
  · cases h

@[simp] theorem M.map_apply (g : α → β) (x : M α) (s : State) :
    (g <$> x) s = match x s with
      | .ok a t => .ok (g a) t
      | .error e t => .error e t := by
  simp only [Functor.map, EStateM.map]
  cases x s <;> rfl

@[simp] theorem M.get_apply (s : State) : (get : M State) s = .ok s s := rfl

@[simp] theorem M.modify_apply (f : State → State) (s : State) : (modify f : M Unit) s = .ok () (f s) := rfl

@[simp] theorem M.get_bind_apply (f : State → M β) (s : State) : ((get : M State) >>= f) s = f s s := rfl

@[simp] theorem M.modify_bind_apply (g : State → State) (f : Unit → M β) (s : State) :
    ((modify g : M Unit) >>= f) s = f () (g s) := rfl

@[simp] theorem M.pure_bind_apply (a : α) (f : α → M β) (s : State) : ((pure a : M α) >>= f) s = f a s := rfl

@[simp] theorem raise_apply (e : Exn) (s : State) : (raise e : M α) s = .error (.exn e) s := rfl

@[simp] theorem raise_bind_apply (e : Exn) (f : α → M β) (s : State) : (raise e >>= f) s = .error (.exn e) s := rfl

@[simp] theorem refuse_apply (r : Refusal) (s : State) : (refuse r : M α) s = .error (.refused r) s := rfl

theorem require_apply (ok : Bool) (e : Exn) (s : State) :
    require ok e s = if ok then .ok () s else .error (.exn e) s := by
  cases ok <;> rfl

@[simp] theorem require_true (e : Exn) : require true e = pure () := rfl

@[simp] theorem require_false (e : Exn) : require false e = raise e := rfl

theorem require_eq_ok {ok : Bool} {e : Exn} {s t : State} (h : require ok e s = .ok () t) : ok = true ∧ t = s := by
  cases ok <;> simp at h ⊢
  exact h.symm

@[simp] theorem draw_apply (n : Nat) (s : State) :
    draw n s = .ok ((Config.freeValue s.free).setWidth n) { s with free := s.free + 1 } := rfl

@[simp] theorem draw_bind_apply (n : Nat) (f : BitVec n → M β) (s : State) :
    (draw n >>= f) s = f ((Config.freeValue s.free).setWidth n) { s with free := s.free + 1 } := rfl

@[simp] theorem drawBool_apply (s : State) :
    drawBool s = .ok ((Config.freeValue s.free).setWidth 1 == 1) { s with free := s.free + 1 } := rfl

@[simp] theorem busGap_apply (s : State) : busGap s = .ok () (if s.dec.held then s else s.othersWrite) := rfl

@[simp] theorem logCycle_apply (c : IoCycle) (s : State) :
    logCycle c s = .ok () { s with ioLog := c :: s.ioLog } := rfl

@[simp] theorem getReg_apply (w : Width) (r : Reg) (s : State) : getReg w r s = .ok (s.regs.read w r) s := rfl

@[simp] theorem setReg_apply (w : Width) (r : Reg) (v : BitVec w.bits) (s : State) :
    setReg w r v s = .ok () (s.withReg w r v) := rfl

@[simp] theorem jumpTo_apply (off : Dword) (s : State) :
    jumpTo off s = .ok () { s with eip := off, prefetch := [] } := rfl

@[simp] theorem advance_apply (s : State) : advance s = .ok () { s with eip := s.nextEip } := rfl

@[simp] theorem setStackPtr_apply (v : Dword) (s : State) :
    setStackPtr v s = .ok () { s with regs := { s.regs with esp := s.stackSet v } } := rfl

@[simp] theorem moveStackPtr_apply (v : Dword) (s : State) :
    moveStackPtr v s = .ok () { s with regs := { s.regs with esp := s.stackSet (s.stackPtr + v) } } := rfl

/-! A meaning as an outcome. -/

/-- A meaning that completes. -/
theorem runInstr_ok {body : M Done} {s t : State} {d : Done} (h : body s = .ok d t) :
    runInstr body s = .next (s.finish t d) := by
  simp [runInstr, h]

/-- A meaning that raises an exception takes it. -/
theorem runInstr_exn {body : M Done} {s t : State} {e : Exn} (h : body s = .error (.exn e) t) :
    runInstr body s = takeExn s t e := by
  simp [runInstr, stopped, h]

/-- A simple meaning that completes goes on past the instruction. -/
theorem runSimple_ok {body : M Unit} {s t : State} (h : body s = .ok () t) :
    runSimple body s = .next (s.finish { t with eip := t.nextEip } .plain) := by
  refine runInstr_ok ?_
  rw [M.bind_ok h]
  rfl

/-- A simple meaning that raises an exception takes it. -/
theorem runSimple_exn {body : M Unit} {s t : State} {e : Exn} (h : body s = .error (.exn e) t) :
    runSimple body s = takeExn s t e := runInstr_exn (M.bind_error h _)

end Sys2Proof.Machine
end

