-- ==== Sys2Proof/Laws/Memory.lean ====
section
/-! SUPPORT. The laws of memory: what a read gives after a write, and that every write keeps the canonical form. -/

namespace Sys2Proof.Machine

/-- A byte just written reads back. -/
@[simp] theorem Memory.read_write_same (m : Memory) (a : Nat) (v : Byte) (h : m.wf = true) :
    (m.write a v).read a = v := by
  induction m with
  | nil => by_cases hv : v = unlisted <;> simp [write, read, hv]
  | cons c m ih =>
    obtain ⟨k, w⟩ := c
    have hm : ∀ n, Memory.wfAbove n m = true → Memory.wf m = true := by
      intro n hn
      cases m with
      | nil => rfl
      | cons d m => simp_all [wf, wfAbove]
    have hread : ∀ (l : Memory) n, Memory.wfAbove n l = true → ∀ b ≤ n, Memory.read l b = unlisted := by
      intro l
      induction l with
      | nil => intros; rfl
      | cons d l ih' =>
        obtain ⟨k', w'⟩ := d
        intro n hn b hb
        simp only [wfAbove, Bool.and_eq_true, decide_eq_true_eq] at hn
        rw [read, if_neg (by omega)]
        exact ih' _ hn.2 b (by omega)
    simp only [wf, Bool.and_eq_true, decide_eq_true_eq] at h
    simp only [write]
    split
    · split
      · rw [read, if_neg (by omega), ‹v = _›]
        exact hread m k h.2 a (by omega)
      · simp [read]
    · split
      · split
        · rw [‹v = _›]
          exact hread m k h.2 a (by omega)
        · simp [read]
      · rw [read, if_neg (by omega)]
        exact ih (hm k h.2)

/-- A write leaves every other byte alone. -/
@[simp] theorem Memory.read_write_other (m : Memory) {a b : Nat} (v : Byte) (h : b ≠ a) :
    (m.write a v).read b = m.read b := by
  induction m with
  | nil => by_cases hv : v = unlisted <;> simp [write, read, hv, h.symm]
  | cons c m ih =>
    obtain ⟨k, w⟩ := c
    simp only [write]
    split
    · split
      · rfl
      · simp [read, h.symm]
    · split
      · subst a
        split <;> simp [read, h.symm]
      · simp only [read]
        split
        · rfl
        · exact ih

/-- The tail of a list in canonical form is one. -/
theorem Memory.wf_of_wfAbove {n : Nat} {m : Memory} (h : m.wfAbove n = true) : m.wf = true := by
  cases m with
  | nil => rfl
  | cons c m => simp_all [wf, wfAbove]

/-- A write above a bound keeps the canonical form above it. -/
theorem Memory.wfAbove_write {n : Nat} {m : Memory} {a : Nat} (v : Byte) (h : m.wfAbove n = true) (hn : n < a)
    (ha : a < 2 ^ 32) : (m.write a v).wfAbove n = true := by
  induction m generalizing n with
  | nil => by_cases hv : v = unlisted <;> simp_all [write, wfAbove]
  | cons c m ih =>
    obtain ⟨k, w⟩ := c
    simp only [wfAbove, Bool.and_eq_true, decide_eq_true_eq] at h
    have hk : ∀ l : Nat, l < k → Memory.wfAbove l m = true := by
      intro l hl
      cases m with
      | nil => rfl
      | cons d m =>
        simp only [wfAbove, Bool.and_eq_true, decide_eq_true_eq] at h ⊢
        exact ⟨⟨⟨by omega, h.2.1.1.2⟩, h.2.1.2⟩, h.2.2⟩
    simp only [write]
    split
    · split
      · simp only [wfAbove, Bool.and_eq_true, decide_eq_true_eq]
        exact h
      · simp only [wfAbove, Bool.and_eq_true, decide_eq_true_eq]
        exact ⟨⟨⟨hn, ha⟩, ‹_›⟩, ⟨⟨‹_›, h.1.1.2⟩, h.1.2⟩, h.2⟩
    · split
      · subst a
        split
        · exact hk n hn
        · simp only [wfAbove, Bool.and_eq_true, decide_eq_true_eq]
          exact ⟨⟨⟨hn, ha⟩, ‹_›⟩, h.2⟩
      · simp only [wfAbove, Bool.and_eq_true, decide_eq_true_eq]
        exact ⟨h.1, ih h.2 (by omega)⟩

/-- A write keeps the canonical form. -/
theorem Memory.wf_write {m : Memory} {a : Nat} (v : Byte) (h : m.wf = true) (ha : a < 2 ^ 32) :
    (m.write a v).wf = true := by
  cases m with
  | nil => by_cases hv : v = unlisted <;> simp_all [write, wf, wfAbove]
  | cons c m =>
    obtain ⟨k, w⟩ := c
    simp only [wf, Bool.and_eq_true, decide_eq_true_eq] at h
    simp only [write]
    split
    · split
      · simp only [wf, Bool.and_eq_true, decide_eq_true_eq]
        exact h
      · simp only [wf, wfAbove, Bool.and_eq_true, decide_eq_true_eq]
        exact ⟨⟨ha, ‹_›⟩, ⟨⟨‹_›, h.1.1⟩, h.1.2⟩, h.2⟩
    · split
      · subst a
        split
        · exact wf_of_wfAbove h.2
        · simp only [wf, Bool.and_eq_true, decide_eq_true_eq]
          exact ⟨⟨ha, ‹_›⟩, h.2⟩
      · simp only [wf, Bool.and_eq_true, decide_eq_true_eq]
        exact ⟨h.1, wfAbove_write v h.2 (by omega) ha⟩

/-- A write of several bytes keeps the canonical form. -/
theorem Memory.wf_writeAt {m : Memory} (ps : List Dword) (v : Nat) (h : m.wf = true) : (m.writeAt ps v).wf = true := by
  induction ps generalizing v with
  | nil => exact h
  | cons p ps ih => exact wf_write _ (ih _) p.isLt

/-- A write of several bytes leaves every other byte alone. -/
theorem Memory.read_writeAt_other {m : Memory} (ps : List Dword) (v : Nat) {a : Dword} (h : a ∉ ps) :
    (m.writeAt ps v).read a.toNat = m.read a.toNat := by
  induction ps generalizing v with
  | nil => rfl
  | cons p ps ih =>
    rw [List.mem_cons, not_or] at h
    rw [writeAt, read_write_other _ _ (fun e => h.1 (BitVec.eq_of_toNat_eq e)), ih _ h.2]

/-- A number read from places that hold equal bytes is the same. -/
theorem Memory.readAt_congr {m n : Memory} (ps : List Dword) (h : ∀ p ∈ ps, m.read p.toNat = n.read p.toNat) :
    m.readAt ps = n.readAt ps := by
  induction ps with
  | nil => rfl
  | cons p ps ih => rw [readAt, readAt, h p (by simp), ih fun q hq => h q (by simp [hq])]

/-- The bytes of a number written to distinct places read back as the number. -/
theorem Memory.readAt_writeAt_same {m : Memory} {ps : List Dword} {v : Nat} (hm : m.wf = true) (hd : ps.Nodup)
    (hv : v < 256 ^ ps.length) : (m.writeAt ps v).readAt ps = v := by
  induction ps generalizing v with
  | nil => simp [readAt] at hv ⊢; omega
  | cons p ps ih =>
    rw [List.nodup_cons] at hd
    have e : ((m.writeAt ps (v / 256)).write p.toNat (BitVec.ofNat 8 v)).readAt ps = (m.writeAt ps (v / 256)).readAt ps :=
      readAt_congr ps fun q hq => read_write_other _ _ fun h => hd.1 (BitVec.eq_of_toNat_eq h ▸ hq)
    rw [writeAt, readAt, read_write_same _ _ _ (wf_writeAt _ _ hm), e,
      ih hd.2 (by rw [List.length_cons, pow_succ] at hv; omega)]
    simp only [BitVec.toNat_ofNat]
    omega

/-- A number read from elsewhere is unchanged by a write. -/
theorem Memory.readAt_writeAt_other {m : Memory} (ps qs : List Dword) (v : Nat) (h : ∀ q ∈ qs, q ∉ ps) :
    (m.writeAt ps v).readAt qs = m.readAt qs := by
  induction qs with
  | nil => rfl
  | cons q qs ih =>
    rw [readAt, readAt, read_writeAt_other _ _ (h q (by simp)), ih fun r hr => h r (by simp [hr])]

/-- A number read from `n` bytes is below 256 to the `n`. -/
theorem Memory.readAt_lt (m : Memory) (ps : List Dword) : m.readAt ps < 256 ^ ps.length := by
  induction ps with
  | nil => simp [readAt]
  | cons p ps ih =>
    have := (m.read p.toNat).isLt
    rw [readAt, List.length_cons, pow_succ]
    omega

end Sys2Proof.Machine
end

