-- ==== Sys2Proof/Laws/State.lean ====
section
/-! SUPPORT. The fields of a state after each named update. -/

namespace Sys2Proof.Machine

/-! A register operand written. -/

@[simp] theorem State.withReg_regs (s : State) (w : Width) (r : Reg) (v : BitVec w.bits) :
    (s.withReg w r v).regs = s.regs.write w r v := rfl

@[simp] theorem State.withReg_eip (s : State) (w : Width) (r : Reg) (v : BitVec w.bits) : (s.withReg w r v).eip = s.eip := rfl

@[simp] theorem State.withReg_flags (s : State) (w : Width) (r : Reg) (v : BitVec w.bits) : (s.withReg w r v).flags = s.flags := rfl

@[simp] theorem State.withReg_segs (s : State) (w : Width) (r : Reg) (v : BitVec w.bits) : (s.withReg w r v).segs = s.segs := rfl

@[simp] theorem State.withReg_cpl (s : State) (w : Width) (r : Reg) (v : BitVec w.bits) : (s.withReg w r v).cpl = s.cpl := rfl

@[simp] theorem State.withReg_cr0 (s : State) (w : Width) (r : Reg) (v : BitVec w.bits) : (s.withReg w r v).cr0 = s.cr0 := rfl

@[simp] theorem State.withReg_cr2 (s : State) (w : Width) (r : Reg) (v : BitVec w.bits) : (s.withReg w r v).cr2 = s.cr2 := rfl

@[simp] theorem State.withReg_cr3 (s : State) (w : Width) (r : Reg) (v : BitVec w.bits) : (s.withReg w r v).cr3 = s.cr3 := rfl

@[simp] theorem State.withReg_gdtr (s : State) (w : Width) (r : Reg) (v : BitVec w.bits) : (s.withReg w r v).gdtr = s.gdtr := rfl

@[simp] theorem State.withReg_idtr (s : State) (w : Width) (r : Reg) (v : BitVec w.bits) : (s.withReg w r v).idtr = s.idtr := rfl

@[simp] theorem State.withReg_ldtr (s : State) (w : Width) (r : Reg) (v : BitVec w.bits) : (s.withReg w r v).ldtr = s.ldtr := rfl

@[simp] theorem State.withReg_tr (s : State) (w : Width) (r : Reg) (v : BitVec w.bits) : (s.withReg w r v).tr = s.tr := rfl

@[simp] theorem State.withReg_dr (s : State) (w : Width) (r : Reg) (v : BitVec w.bits) : (s.withReg w r v).dr = s.dr := rfl

@[simp] theorem State.withReg_dr6 (s : State) (w : Width) (r : Reg) (v : BitVec w.bits) : (s.withReg w r v).dr6 = s.dr6 := rfl

@[simp] theorem State.withReg_dr7 (s : State) (w : Width) (r : Reg) (v : BitVec w.bits) : (s.withReg w r v).dr7 = s.dr7 := rfl

@[simp] theorem State.withReg_tr6 (s : State) (w : Width) (r : Reg) (v : BitVec w.bits) : (s.withReg w r v).tr6 = s.tr6 := rfl

@[simp] theorem State.withReg_tr7 (s : State) (w : Width) (r : Reg) (v : BitVec w.bits) : (s.withReg w r v).tr7 = s.tr7 := rfl

@[simp] theorem State.withReg_tlb (s : State) (w : Width) (r : Reg) (v : BitVec w.bits) : (s.withReg w r v).tlb = s.tlb := rfl

@[simp] theorem State.withReg_mem (s : State) (w : Width) (r : Reg) (v : BitVec w.bits) : (s.withReg w r v).mem = s.mem := rfl

@[simp] theorem State.withReg_prefetch (s : State) (w : Width) (r : Reg) (v : BitVec w.bits) : (s.withReg w r v).prefetch = s.prefetch := rfl

@[simp] theorem State.withReg_nmiPending (s : State) (w : Width) (r : Reg) (v : BitVec w.bits) : (s.withReg w r v).nmiPending = s.nmiPending := rfl

@[simp] theorem State.withReg_nmiInService (s : State) (w : Width) (r : Reg) (v : BitVec w.bits) : (s.withReg w r v).nmiInService = s.nmiInService := rfl

@[simp] theorem State.withReg_inhibit (s : State) (w : Width) (r : Reg) (v : BitVec w.bits) : (s.withReg w r v).inhibit = s.inhibit := rfl

@[simp] theorem State.withReg_run (s : State) (w : Width) (r : Reg) (v : BitVec w.bits) : (s.withReg w r v).run = s.run := rfl

@[simp] theorem State.withReg_pend (s : State) (w : Width) (r : Reg) (v : BitVec w.bits) : (s.withReg w r v).pend = s.pend := rfl

@[simp] theorem State.withReg_protocol387 (s : State) (w : Width) (r : Reg) (v : BitVec w.bits) : (s.withReg w r v).protocol387 = s.protocol387 := rfl

@[simp] theorem State.withReg_pins (s : State) (w : Width) (r : Reg) (v : BitVec w.bits) : (s.withReg w r v).pins = s.pins := rfl

@[simp] theorem State.withReg_inputs (s : State) (w : Width) (r : Reg) (v : BitVec w.bits) : (s.withReg w r v).inputs = s.inputs := rfl

@[simp] theorem State.withReg_masters (s : State) (w : Width) (r : Reg) (v : BitVec w.bits) : (s.withReg w r v).masters = s.masters := rfl

@[simp] theorem State.withReg_map (s : State) (w : Width) (r : Reg) (v : BitVec w.bits) : (s.withReg w r v).map = s.map := rfl

@[simp] theorem State.withReg_ports (s : State) (w : Width) (r : Reg) (v : BitVec w.bits) : (s.withReg w r v).ports = s.ports := rfl

@[simp] theorem State.withReg_ioLog (s : State) (w : Width) (r : Reg) (v : BitVec w.bits) : (s.withReg w r v).ioLog = s.ioLog := rfl

@[simp] theorem State.withReg_dec (s : State) (w : Width) (r : Reg) (v : BitVec w.bits) : (s.withReg w r v).dec = s.dec := rfl

@[simp] theorem State.withReg_free (s : State) (w : Width) (r : Reg) (v : BitVec w.bits) : (s.withReg w r v).free = s.free := rfl

/-! A byte of memory written. -/

@[simp] theorem State.putByte_regs (s : State) (p : Dword) (v : Byte) : (s.putByte p v).regs = s.regs := rfl

@[simp] theorem State.putByte_eip (s : State) (p : Dword) (v : Byte) : (s.putByte p v).eip = s.eip := rfl

@[simp] theorem State.putByte_flags (s : State) (p : Dword) (v : Byte) : (s.putByte p v).flags = s.flags := rfl

@[simp] theorem State.putByte_segs (s : State) (p : Dword) (v : Byte) : (s.putByte p v).segs = s.segs := rfl

@[simp] theorem State.putByte_cpl (s : State) (p : Dword) (v : Byte) : (s.putByte p v).cpl = s.cpl := rfl

@[simp] theorem State.putByte_cr0 (s : State) (p : Dword) (v : Byte) : (s.putByte p v).cr0 = s.cr0 := rfl

@[simp] theorem State.putByte_cr2 (s : State) (p : Dword) (v : Byte) : (s.putByte p v).cr2 = s.cr2 := rfl

@[simp] theorem State.putByte_cr3 (s : State) (p : Dword) (v : Byte) : (s.putByte p v).cr3 = s.cr3 := rfl

@[simp] theorem State.putByte_gdtr (s : State) (p : Dword) (v : Byte) : (s.putByte p v).gdtr = s.gdtr := rfl

@[simp] theorem State.putByte_idtr (s : State) (p : Dword) (v : Byte) : (s.putByte p v).idtr = s.idtr := rfl

@[simp] theorem State.putByte_ldtr (s : State) (p : Dword) (v : Byte) : (s.putByte p v).ldtr = s.ldtr := rfl

@[simp] theorem State.putByte_tr (s : State) (p : Dword) (v : Byte) : (s.putByte p v).tr = s.tr := rfl

@[simp] theorem State.putByte_dr (s : State) (p : Dword) (v : Byte) : (s.putByte p v).dr = s.dr := rfl

@[simp] theorem State.putByte_dr6 (s : State) (p : Dword) (v : Byte) : (s.putByte p v).dr6 = s.dr6 := rfl

@[simp] theorem State.putByte_dr7 (s : State) (p : Dword) (v : Byte) : (s.putByte p v).dr7 = s.dr7 := rfl

@[simp] theorem State.putByte_tr6 (s : State) (p : Dword) (v : Byte) : (s.putByte p v).tr6 = s.tr6 := rfl

@[simp] theorem State.putByte_tr7 (s : State) (p : Dword) (v : Byte) : (s.putByte p v).tr7 = s.tr7 := rfl

@[simp] theorem State.putByte_tlb (s : State) (p : Dword) (v : Byte) : (s.putByte p v).tlb = s.tlb := rfl

@[simp] theorem State.putByte_mem (s : State) (p : Dword) (v : Byte) :
    (s.putByte p v).mem = s.mem.write p.toNat v := rfl

@[simp] theorem State.putByte_nmiPending (s : State) (p : Dword) (v : Byte) : (s.putByte p v).nmiPending = s.nmiPending := rfl

@[simp] theorem State.putByte_nmiInService (s : State) (p : Dword) (v : Byte) : (s.putByte p v).nmiInService = s.nmiInService := rfl

@[simp] theorem State.putByte_inhibit (s : State) (p : Dword) (v : Byte) : (s.putByte p v).inhibit = s.inhibit := rfl

@[simp] theorem State.putByte_run (s : State) (p : Dword) (v : Byte) : (s.putByte p v).run = s.run := rfl

@[simp] theorem State.putByte_pend (s : State) (p : Dword) (v : Byte) : (s.putByte p v).pend = s.pend := rfl

@[simp] theorem State.putByte_protocol387 (s : State) (p : Dword) (v : Byte) : (s.putByte p v).protocol387 = s.protocol387 := rfl

@[simp] theorem State.putByte_pins (s : State) (p : Dword) (v : Byte) : (s.putByte p v).pins = s.pins := rfl

@[simp] theorem State.putByte_inputs (s : State) (p : Dword) (v : Byte) : (s.putByte p v).inputs = s.inputs := rfl

@[simp] theorem State.putByte_masters (s : State) (p : Dword) (v : Byte) : (s.putByte p v).masters = s.masters := rfl

@[simp] theorem State.putByte_map (s : State) (p : Dword) (v : Byte) : (s.putByte p v).map = s.map := rfl

@[simp] theorem State.putByte_ports (s : State) (p : Dword) (v : Byte) : (s.putByte p v).ports = s.ports := rfl

@[simp] theorem State.putByte_ioLog (s : State) (p : Dword) (v : Byte) : (s.putByte p v).ioLog = s.ioLog := rfl

@[simp] theorem State.putByte_dec (s : State) (p : Dword) (v : Byte) : (s.putByte p v).dec = s.dec := rfl

@[simp] theorem State.putByte_free (s : State) (p : Dword) (v : Byte) : (s.putByte p v).free = s.free := rfl

/-! Several bytes of memory written. -/

/-- Writing bytes changes memory and the prefetch queue only. -/
theorem State.putBytes_eq (s : State) (ps : List Dword) (v : Nat) :
    s.putBytes ps v = { s with mem := s.mem.writeAt ps v, prefetch := (s.putBytes ps v).prefetch } := by
  induction ps generalizing v with
  | nil => rfl
  | cons p ps ih => rw [putBytes, ih]; rfl

/-! The fields. -/

@[simp] theorem State.putBytes_regs (s : State) (ps : List Dword) (v : Nat) : (s.putBytes ps v).regs = s.regs := by
  rw [putBytes_eq]

@[simp] theorem State.putBytes_eip (s : State) (ps : List Dword) (v : Nat) : (s.putBytes ps v).eip = s.eip := by
  rw [putBytes_eq]

@[simp] theorem State.putBytes_flags (s : State) (ps : List Dword) (v : Nat) : (s.putBytes ps v).flags = s.flags := by
  rw [putBytes_eq]

@[simp] theorem State.putBytes_segs (s : State) (ps : List Dword) (v : Nat) : (s.putBytes ps v).segs = s.segs := by
  rw [putBytes_eq]

@[simp] theorem State.putBytes_cpl (s : State) (ps : List Dword) (v : Nat) : (s.putBytes ps v).cpl = s.cpl := by
  rw [putBytes_eq]

@[simp] theorem State.putBytes_cr0 (s : State) (ps : List Dword) (v : Nat) : (s.putBytes ps v).cr0 = s.cr0 := by
  rw [putBytes_eq]

@[simp] theorem State.putBytes_cr2 (s : State) (ps : List Dword) (v : Nat) : (s.putBytes ps v).cr2 = s.cr2 := by
  rw [putBytes_eq]

@[simp] theorem State.putBytes_cr3 (s : State) (ps : List Dword) (v : Nat) : (s.putBytes ps v).cr3 = s.cr3 := by
  rw [putBytes_eq]

@[simp] theorem State.putBytes_gdtr (s : State) (ps : List Dword) (v : Nat) : (s.putBytes ps v).gdtr = s.gdtr := by
  rw [putBytes_eq]

@[simp] theorem State.putBytes_idtr (s : State) (ps : List Dword) (v : Nat) : (s.putBytes ps v).idtr = s.idtr := by
  rw [putBytes_eq]

@[simp] theorem State.putBytes_ldtr (s : State) (ps : List Dword) (v : Nat) : (s.putBytes ps v).ldtr = s.ldtr := by
  rw [putBytes_eq]

@[simp] theorem State.putBytes_tr (s : State) (ps : List Dword) (v : Nat) : (s.putBytes ps v).tr = s.tr := by
  rw [putBytes_eq]

@[simp] theorem State.putBytes_dr (s : State) (ps : List Dword) (v : Nat) : (s.putBytes ps v).dr = s.dr := by
  rw [putBytes_eq]

@[simp] theorem State.putBytes_dr6 (s : State) (ps : List Dword) (v : Nat) : (s.putBytes ps v).dr6 = s.dr6 := by
  rw [putBytes_eq]

@[simp] theorem State.putBytes_dr7 (s : State) (ps : List Dword) (v : Nat) : (s.putBytes ps v).dr7 = s.dr7 := by
  rw [putBytes_eq]

@[simp] theorem State.putBytes_tr6 (s : State) (ps : List Dword) (v : Nat) : (s.putBytes ps v).tr6 = s.tr6 := by
  rw [putBytes_eq]

@[simp] theorem State.putBytes_tr7 (s : State) (ps : List Dword) (v : Nat) : (s.putBytes ps v).tr7 = s.tr7 := by
  rw [putBytes_eq]

@[simp] theorem State.putBytes_tlb (s : State) (ps : List Dword) (v : Nat) : (s.putBytes ps v).tlb = s.tlb := by
  rw [putBytes_eq]

@[simp] theorem State.putBytes_mem (s : State) (ps : List Dword) (v : Nat) :
    (s.putBytes ps v).mem = s.mem.writeAt ps v := by
  rw [putBytes_eq]

@[simp] theorem State.putBytes_nmiPending (s : State) (ps : List Dword) (v : Nat) : (s.putBytes ps v).nmiPending = s.nmiPending := by
  rw [putBytes_eq]

@[simp] theorem State.putBytes_nmiInService (s : State) (ps : List Dword) (v : Nat) : (s.putBytes ps v).nmiInService = s.nmiInService := by
  rw [putBytes_eq]

@[simp] theorem State.putBytes_inhibit (s : State) (ps : List Dword) (v : Nat) : (s.putBytes ps v).inhibit = s.inhibit := by
  rw [putBytes_eq]

@[simp] theorem State.putBytes_run (s : State) (ps : List Dword) (v : Nat) : (s.putBytes ps v).run = s.run := by
  rw [putBytes_eq]

@[simp] theorem State.putBytes_pend (s : State) (ps : List Dword) (v : Nat) : (s.putBytes ps v).pend = s.pend := by
  rw [putBytes_eq]

@[simp] theorem State.putBytes_protocol387 (s : State) (ps : List Dword) (v : Nat) : (s.putBytes ps v).protocol387 = s.protocol387 := by
  rw [putBytes_eq]

@[simp] theorem State.putBytes_pins (s : State) (ps : List Dword) (v : Nat) : (s.putBytes ps v).pins = s.pins := by
  rw [putBytes_eq]

@[simp] theorem State.putBytes_inputs (s : State) (ps : List Dword) (v : Nat) : (s.putBytes ps v).inputs = s.inputs := by
  rw [putBytes_eq]

@[simp] theorem State.putBytes_masters (s : State) (ps : List Dword) (v : Nat) : (s.putBytes ps v).masters = s.masters := by
  rw [putBytes_eq]

@[simp] theorem State.putBytes_map (s : State) (ps : List Dword) (v : Nat) : (s.putBytes ps v).map = s.map := by
  rw [putBytes_eq]

@[simp] theorem State.putBytes_ports (s : State) (ps : List Dword) (v : Nat) : (s.putBytes ps v).ports = s.ports := by
  rw [putBytes_eq]

@[simp] theorem State.putBytes_ioLog (s : State) (ps : List Dword) (v : Nat) : (s.putBytes ps v).ioLog = s.ioLog := by
  rw [putBytes_eq]

@[simp] theorem State.putBytes_dec (s : State) (ps : List Dword) (v : Nat) : (s.putBytes ps v).dec = s.dec := by
  rw [putBytes_eq]

@[simp] theorem State.putBytes_free (s : State) (ps : List Dword) (v : Nat) : (s.putBytes ps v).free = s.free := by
  rw [putBytes_eq]

/-! What other masters write. -/

/-- A byte written by another master changes memory and the prefetch queue only. -/
theorem State.takeWrite_eq (s : State) (x : BusWrite) :
    s.takeWrite x = { s with mem := (s.takeWrite x).mem, prefetch := (s.takeWrite x).prefetch } := by
  unfold takeWrite; split <;> rfl

theorem State.foldl_takeWrite_eq (s : State) (xs : List BusWrite) :
    xs.foldl takeWrite s =
      { s with mem := (xs.foldl takeWrite s).mem, prefetch := (xs.foldl takeWrite s).prefetch } := by
  induction xs generalizing s with
  | nil => rfl
  | cons x xs ih => rw [List.foldl_cons, ih, takeWrite_eq]

/-- What other masters write changes memory and the prefetch queue only, and takes one moment of theirs. -/
theorem State.othersWrite_eq (s : State) :
    s.othersWrite = { s with mem := s.othersWrite.mem, prefetch := s.othersWrite.prefetch,
                             masters := s.masters.tail } := by
  unfold othersWrite
  split
  · rw [show s.masters.tail = s.masters by simp [*]]
  · rename_i h; rw [foldl_takeWrite_eq]; simp [h]

/-- With no other master nothing is written. -/
theorem State.othersWrite_none {s : State} (h : s.masters = []) : s.othersWrite = s := by
  unfold othersWrite; rw [h]

/-! The fields. -/

@[simp] theorem State.othersWrite_regs (s : State) : (s.othersWrite).regs = s.regs := by
  rw [othersWrite_eq]

@[simp] theorem State.othersWrite_eip (s : State) : (s.othersWrite).eip = s.eip := by
  rw [othersWrite_eq]

@[simp] theorem State.othersWrite_flags (s : State) : (s.othersWrite).flags = s.flags := by
  rw [othersWrite_eq]

@[simp] theorem State.othersWrite_segs (s : State) : (s.othersWrite).segs = s.segs := by
  rw [othersWrite_eq]

@[simp] theorem State.othersWrite_cpl (s : State) : (s.othersWrite).cpl = s.cpl := by
  rw [othersWrite_eq]

@[simp] theorem State.othersWrite_cr0 (s : State) : (s.othersWrite).cr0 = s.cr0 := by
  rw [othersWrite_eq]

@[simp] theorem State.othersWrite_cr2 (s : State) : (s.othersWrite).cr2 = s.cr2 := by
  rw [othersWrite_eq]

@[simp] theorem State.othersWrite_cr3 (s : State) : (s.othersWrite).cr3 = s.cr3 := by
  rw [othersWrite_eq]

@[simp] theorem State.othersWrite_gdtr (s : State) : (s.othersWrite).gdtr = s.gdtr := by
  rw [othersWrite_eq]

@[simp] theorem State.othersWrite_idtr (s : State) : (s.othersWrite).idtr = s.idtr := by
  rw [othersWrite_eq]

@[simp] theorem State.othersWrite_ldtr (s : State) : (s.othersWrite).ldtr = s.ldtr := by
  rw [othersWrite_eq]

@[simp] theorem State.othersWrite_tr (s : State) : (s.othersWrite).tr = s.tr := by
  rw [othersWrite_eq]

@[simp] theorem State.othersWrite_dr (s : State) : (s.othersWrite).dr = s.dr := by
  rw [othersWrite_eq]

@[simp] theorem State.othersWrite_dr6 (s : State) : (s.othersWrite).dr6 = s.dr6 := by
  rw [othersWrite_eq]

@[simp] theorem State.othersWrite_dr7 (s : State) : (s.othersWrite).dr7 = s.dr7 := by
  rw [othersWrite_eq]

@[simp] theorem State.othersWrite_tr6 (s : State) : (s.othersWrite).tr6 = s.tr6 := by
  rw [othersWrite_eq]

@[simp] theorem State.othersWrite_tr7 (s : State) : (s.othersWrite).tr7 = s.tr7 := by
  rw [othersWrite_eq]

@[simp] theorem State.othersWrite_tlb (s : State) : (s.othersWrite).tlb = s.tlb := by
  rw [othersWrite_eq]

@[simp] theorem State.othersWrite_nmiPending (s : State) : (s.othersWrite).nmiPending = s.nmiPending := by
  rw [othersWrite_eq]

@[simp] theorem State.othersWrite_nmiInService (s : State) : (s.othersWrite).nmiInService = s.nmiInService := by
  rw [othersWrite_eq]

@[simp] theorem State.othersWrite_inhibit (s : State) : (s.othersWrite).inhibit = s.inhibit := by
  rw [othersWrite_eq]

@[simp] theorem State.othersWrite_run (s : State) : (s.othersWrite).run = s.run := by
  rw [othersWrite_eq]

@[simp] theorem State.othersWrite_pend (s : State) : (s.othersWrite).pend = s.pend := by
  rw [othersWrite_eq]

@[simp] theorem State.othersWrite_protocol387 (s : State) : (s.othersWrite).protocol387 = s.protocol387 := by
  rw [othersWrite_eq]

@[simp] theorem State.othersWrite_pins (s : State) : (s.othersWrite).pins = s.pins := by
  rw [othersWrite_eq]

@[simp] theorem State.othersWrite_inputs (s : State) : (s.othersWrite).inputs = s.inputs := by
  rw [othersWrite_eq]

@[simp] theorem State.othersWrite_masters (s : State) :
    (s.othersWrite).masters = s.masters.tail := by
  rw [othersWrite_eq]

@[simp] theorem State.othersWrite_map (s : State) : (s.othersWrite).map = s.map := by
  rw [othersWrite_eq]

@[simp] theorem State.othersWrite_ports (s : State) : (s.othersWrite).ports = s.ports := by
  rw [othersWrite_eq]

@[simp] theorem State.othersWrite_ioLog (s : State) : (s.othersWrite).ioLog = s.ioLog := by
  rw [othersWrite_eq]

@[simp] theorem State.othersWrite_dec (s : State) : (s.othersWrite).dec = s.dec := by
  rw [othersWrite_eq]

@[simp] theorem State.othersWrite_free (s : State) : (s.othersWrite).free = s.free := by
  rw [othersWrite_eq]

/-! Data breakpoints noted. -/

@[simp] theorem State.noteHits_regs (s : State) : (s.noteHits).regs = s.regs := by
  unfold noteHits; split <;> rfl

@[simp] theorem State.noteHits_eip (s : State) : (s.noteHits).eip = s.eip := by
  unfold noteHits; split <;> rfl

@[simp] theorem State.noteHits_flags (s : State) : (s.noteHits).flags = s.flags := by
  unfold noteHits; split <;> rfl

@[simp] theorem State.noteHits_segs (s : State) : (s.noteHits).segs = s.segs := by
  unfold noteHits; split <;> rfl

@[simp] theorem State.noteHits_cpl (s : State) : (s.noteHits).cpl = s.cpl := by
  unfold noteHits; split <;> rfl

@[simp] theorem State.noteHits_cr0 (s : State) : (s.noteHits).cr0 = s.cr0 := by
  unfold noteHits; split <;> rfl

@[simp] theorem State.noteHits_cr2 (s : State) : (s.noteHits).cr2 = s.cr2 := by
  unfold noteHits; split <;> rfl

@[simp] theorem State.noteHits_cr3 (s : State) : (s.noteHits).cr3 = s.cr3 := by
  unfold noteHits; split <;> rfl

@[simp] theorem State.noteHits_gdtr (s : State) : (s.noteHits).gdtr = s.gdtr := by
  unfold noteHits; split <;> rfl

@[simp] theorem State.noteHits_idtr (s : State) : (s.noteHits).idtr = s.idtr := by
  unfold noteHits; split <;> rfl

@[simp] theorem State.noteHits_ldtr (s : State) : (s.noteHits).ldtr = s.ldtr := by
  unfold noteHits; split <;> rfl

@[simp] theorem State.noteHits_tr (s : State) : (s.noteHits).tr = s.tr := by
  unfold noteHits; split <;> rfl

@[simp] theorem State.noteHits_dr (s : State) : (s.noteHits).dr = s.dr := by
  unfold noteHits; split <;> rfl

@[simp] theorem State.noteHits_dr7 (s : State) : (s.noteHits).dr7 = s.dr7 := by
  unfold noteHits; split <;> rfl

@[simp] theorem State.noteHits_tr6 (s : State) : (s.noteHits).tr6 = s.tr6 := by
  unfold noteHits; split <;> rfl

@[simp] theorem State.noteHits_tr7 (s : State) : (s.noteHits).tr7 = s.tr7 := by
  unfold noteHits; split <;> rfl

@[simp] theorem State.noteHits_tlb (s : State) : (s.noteHits).tlb = s.tlb := by
  unfold noteHits; split <;> rfl

@[simp] theorem State.noteHits_mem (s : State) : (s.noteHits).mem = s.mem := by
  unfold noteHits; split <;> rfl

@[simp] theorem State.noteHits_prefetch (s : State) : (s.noteHits).prefetch = s.prefetch := by
  unfold noteHits; split <;> rfl

@[simp] theorem State.noteHits_nmiPending (s : State) : (s.noteHits).nmiPending = s.nmiPending := by
  unfold noteHits; split <;> rfl

@[simp] theorem State.noteHits_nmiInService (s : State) : (s.noteHits).nmiInService = s.nmiInService := by
  unfold noteHits; split <;> rfl

@[simp] theorem State.noteHits_inhibit (s : State) : (s.noteHits).inhibit = s.inhibit := by
  unfold noteHits; split <;> rfl

@[simp] theorem State.noteHits_run (s : State) : (s.noteHits).run = s.run := by
  unfold noteHits; split <;> rfl

@[simp] theorem State.noteHits_protocol387 (s : State) : (s.noteHits).protocol387 = s.protocol387 := by
  unfold noteHits; split <;> rfl

@[simp] theorem State.noteHits_pins (s : State) : (s.noteHits).pins = s.pins := by
  unfold noteHits; split <;> rfl

@[simp] theorem State.noteHits_inputs (s : State) : (s.noteHits).inputs = s.inputs := by
  unfold noteHits; split <;> rfl

@[simp] theorem State.noteHits_masters (s : State) : (s.noteHits).masters = s.masters := by
  unfold noteHits; split <;> rfl

@[simp] theorem State.noteHits_map (s : State) : (s.noteHits).map = s.map := by
  unfold noteHits; split <;> rfl

@[simp] theorem State.noteHits_ports (s : State) : (s.noteHits).ports = s.ports := by
  unfold noteHits; split <;> rfl

@[simp] theorem State.noteHits_ioLog (s : State) : (s.noteHits).ioLog = s.ioLog := by
  unfold noteHits; split <;> rfl

@[simp] theorem State.noteHits_dec (s : State) : (s.noteHits).dec = s.dec := by
  unfold noteHits; split <;> rfl

/-! Deciding the held data breakpoints. -/

@[simp] theorem State.decideHeld_regs (s : State) : s.decideHeld.regs = s.regs := by
  unfold decideHeld; split <;> rfl

@[simp] theorem State.decideHeld_eip (s : State) : s.decideHeld.eip = s.eip := by
  unfold decideHeld; split <;> rfl

@[simp] theorem State.decideHeld_flags (s : State) : s.decideHeld.flags = s.flags := by
  unfold decideHeld; split <;> rfl

@[simp] theorem State.decideHeld_segs (s : State) : s.decideHeld.segs = s.segs := by
  unfold decideHeld; split <;> rfl

@[simp] theorem State.decideHeld_cpl (s : State) : s.decideHeld.cpl = s.cpl := by
  unfold decideHeld; split <;> rfl

@[simp] theorem State.decideHeld_cr0 (s : State) : s.decideHeld.cr0 = s.cr0 := by
  unfold decideHeld; split <;> rfl

@[simp] theorem State.decideHeld_cr2 (s : State) : s.decideHeld.cr2 = s.cr2 := by
  unfold decideHeld; split <;> rfl

@[simp] theorem State.decideHeld_cr3 (s : State) : s.decideHeld.cr3 = s.cr3 := by
  unfold decideHeld; split <;> rfl

@[simp] theorem State.decideHeld_gdtr (s : State) : s.decideHeld.gdtr = s.gdtr := by
  unfold decideHeld; split <;> rfl

@[simp] theorem State.decideHeld_idtr (s : State) : s.decideHeld.idtr = s.idtr := by
  unfold decideHeld; split <;> rfl

@[simp] theorem State.decideHeld_ldtr (s : State) : s.decideHeld.ldtr = s.ldtr := by
  unfold decideHeld; split <;> rfl

@[simp] theorem State.decideHeld_tr (s : State) : s.decideHeld.tr = s.tr := by
  unfold decideHeld; split <;> rfl

@[simp] theorem State.decideHeld_dr (s : State) : s.decideHeld.dr = s.dr := by
  unfold decideHeld; split <;> rfl

@[simp] theorem State.decideHeld_dr7 (s : State) : s.decideHeld.dr7 = s.dr7 := by
  unfold decideHeld; split <;> rfl

@[simp] theorem State.decideHeld_tr6 (s : State) : s.decideHeld.tr6 = s.tr6 := by
  unfold decideHeld; split <;> rfl

@[simp] theorem State.decideHeld_tr7 (s : State) : s.decideHeld.tr7 = s.tr7 := by
  unfold decideHeld; split <;> rfl

@[simp] theorem State.decideHeld_tlb (s : State) : s.decideHeld.tlb = s.tlb := by
  unfold decideHeld; split <;> rfl

@[simp] theorem State.decideHeld_mem (s : State) : s.decideHeld.mem = s.mem := by
  unfold decideHeld; split <;> rfl

@[simp] theorem State.decideHeld_prefetch (s : State) : s.decideHeld.prefetch = s.prefetch := by
  unfold decideHeld; split <;> rfl

@[simp] theorem State.decideHeld_nmiPending (s : State) : s.decideHeld.nmiPending = s.nmiPending := by
  unfold decideHeld; split <;> rfl

@[simp] theorem State.decideHeld_nmiInService (s : State) : s.decideHeld.nmiInService = s.nmiInService := by
  unfold decideHeld; split <;> rfl

@[simp] theorem State.decideHeld_inhibit (s : State) : s.decideHeld.inhibit = s.inhibit := by
  unfold decideHeld; split <;> rfl

@[simp] theorem State.decideHeld_run (s : State) : s.decideHeld.run = s.run := by
  unfold decideHeld; split <;> rfl

@[simp] theorem State.decideHeld_protocol387 (s : State) : s.decideHeld.protocol387 = s.protocol387 := by
  unfold decideHeld; split <;> rfl

@[simp] theorem State.decideHeld_pins (s : State) : s.decideHeld.pins = s.pins := by
  unfold decideHeld; split <;> rfl

@[simp] theorem State.decideHeld_inputs (s : State) : s.decideHeld.inputs = s.inputs := by
  unfold decideHeld; split <;> rfl

@[simp] theorem State.decideHeld_masters (s : State) : s.decideHeld.masters = s.masters := by
  unfold decideHeld; split <;> rfl

@[simp] theorem State.decideHeld_map (s : State) : s.decideHeld.map = s.map := by
  unfold decideHeld; split <;> rfl

@[simp] theorem State.decideHeld_ports (s : State) : s.decideHeld.ports = s.ports := by
  unfold decideHeld; split <;> rfl

@[simp] theorem State.decideHeld_ioLog (s : State) : s.decideHeld.ioLog = s.ioLog := by
  unfold decideHeld; split <;> rfl

@[simp] theorem State.decideHeld_dec (s : State) : s.decideHeld.dec = s.dec := by
  unfold decideHeld; split <;> rfl

@[simp] theorem State.decideHeld_dr6 (s : State) : s.decideHeld.dr6 = s.dr6 := by
  unfold decideHeld; split <;> rfl

@[simp] theorem State.decideHeld_pend_bs (s : State) : s.decideHeld.pend.bs = s.pend.bs := by
  unfold decideHeld; split <;> rfl

@[simp] theorem State.decideHeld_pend_bt (s : State) : s.decideHeld.pend.bt = s.pend.bt := by
  unfold decideHeld; split <;> rfl

/-! An instruction finished. -/

@[simp] theorem State.finish_regs (s t : State) (d : Done) :
    (s.finish t d).regs = t.regs := by
  simp [finish]

@[simp] theorem State.finish_eip (s t : State) (d : Done) :
    (s.finish t d).eip = t.eip := by
  simp [finish]

@[simp] theorem State.finish_flags (s t : State) (d : Done) :
    (s.finish t d).flags = { t.flags with rf := if d = .plain then false else t.flags.rf } := by
  simp [finish]

@[simp] theorem State.finish_segs (s t : State) (d : Done) :
    (s.finish t d).segs = t.segs := by
  simp [finish]

@[simp] theorem State.finish_cpl (s t : State) (d : Done) :
    (s.finish t d).cpl = t.cpl := by
  simp [finish]

@[simp] theorem State.finish_cr0 (s t : State) (d : Done) :
    (s.finish t d).cr0 = t.cr0 := by
  simp [finish]

@[simp] theorem State.finish_cr2 (s t : State) (d : Done) :
    (s.finish t d).cr2 = t.cr2 := by
  simp [finish]

@[simp] theorem State.finish_cr3 (s t : State) (d : Done) :
    (s.finish t d).cr3 = t.cr3 := by
  simp [finish]

@[simp] theorem State.finish_gdtr (s t : State) (d : Done) :
    (s.finish t d).gdtr = t.gdtr := by
  simp [finish]

@[simp] theorem State.finish_idtr (s t : State) (d : Done) :
    (s.finish t d).idtr = t.idtr := by
  simp [finish]

@[simp] theorem State.finish_ldtr (s t : State) (d : Done) :
    (s.finish t d).ldtr = t.ldtr := by
  simp [finish]

@[simp] theorem State.finish_tr (s t : State) (d : Done) :
    (s.finish t d).tr = t.tr := by
  simp [finish]

@[simp] theorem State.finish_dr (s t : State) (d : Done) :
    (s.finish t d).dr = t.dr := by
  simp [finish]

@[simp] theorem State.finish_dr7 (s t : State) (d : Done) :
    (s.finish t d).dr7 = t.dr7 := by
  simp [finish]

@[simp] theorem State.finish_tr6 (s t : State) (d : Done) :
    (s.finish t d).tr6 = t.tr6 := by
  simp [finish]

@[simp] theorem State.finish_tr7 (s t : State) (d : Done) :
    (s.finish t d).tr7 = t.tr7 := by
  simp [finish]

@[simp] theorem State.finish_tlb (s t : State) (d : Done) :
    (s.finish t d).tlb = t.tlb := by
  simp [finish]

@[simp] theorem State.finish_mem (s t : State) (d : Done) :
    (s.finish t d).mem = t.mem := by
  simp [finish]

@[simp] theorem State.finish_prefetch (s t : State) (d : Done) :
    (s.finish t d).prefetch = t.prefetch := by
  simp [finish]

@[simp] theorem State.finish_nmiPending (s t : State) (d : Done) :
    (s.finish t d).nmiPending = t.nmiPending := by
  simp [finish]

@[simp] theorem State.finish_nmiInService (s t : State) (d : Done) :
    (s.finish t d).nmiInService = t.nmiInService := by
  simp [finish]

@[simp] theorem State.finish_inhibit (s t : State) (d : Done) :
    (s.finish t d).inhibit = t.inhibit := by
  simp [finish]

@[simp] theorem State.finish_run (s t : State) (d : Done) :
    (s.finish t d).run = t.run := by
  simp [finish]

@[simp] theorem State.finish_protocol387 (s t : State) (d : Done) :
    (s.finish t d).protocol387 = t.protocol387 := by
  simp [finish]

@[simp] theorem State.finish_pins (s t : State) (d : Done) :
    (s.finish t d).pins = t.pins := by
  simp [finish]

@[simp] theorem State.finish_inputs (s t : State) (d : Done) :
    (s.finish t d).inputs = t.inputs := by
  simp [finish]

@[simp] theorem State.finish_masters (s t : State) (d : Done) :
    (s.finish t d).masters = t.masters := by
  simp [finish]

@[simp] theorem State.finish_map (s t : State) (d : Done) :
    (s.finish t d).map = t.map := by
  simp [finish]

@[simp] theorem State.finish_ports (s t : State) (d : Done) :
    (s.finish t d).ports = t.ports := by
  simp [finish]

@[simp] theorem State.finish_ioLog (s t : State) (d : Done) :
    (s.finish t d).ioLog = t.ioLog := by
  simp [finish]

@[simp] theorem State.finish_dec (s t : State) (d : Done) :
    (s.finish t d).dec = InProgress.empty := by
  simp [finish]

/-! Nothing in progress. -/

@[simp] theorem State.idle_regs (s : State) : (s.idle).regs = s.regs := rfl

@[simp] theorem State.idle_eip (s : State) : (s.idle).eip = s.eip := rfl

@[simp] theorem State.idle_flags (s : State) : (s.idle).flags = s.flags := rfl

@[simp] theorem State.idle_segs (s : State) : (s.idle).segs = s.segs := rfl

@[simp] theorem State.idle_cpl (s : State) : (s.idle).cpl = s.cpl := rfl

@[simp] theorem State.idle_cr0 (s : State) : (s.idle).cr0 = s.cr0 := rfl

@[simp] theorem State.idle_cr2 (s : State) : (s.idle).cr2 = s.cr2 := rfl

@[simp] theorem State.idle_cr3 (s : State) : (s.idle).cr3 = s.cr3 := rfl

@[simp] theorem State.idle_gdtr (s : State) : (s.idle).gdtr = s.gdtr := rfl

@[simp] theorem State.idle_idtr (s : State) : (s.idle).idtr = s.idtr := rfl

@[simp] theorem State.idle_ldtr (s : State) : (s.idle).ldtr = s.ldtr := rfl

@[simp] theorem State.idle_tr (s : State) : (s.idle).tr = s.tr := rfl

@[simp] theorem State.idle_dr (s : State) : (s.idle).dr = s.dr := rfl

@[simp] theorem State.idle_dr6 (s : State) : (s.idle).dr6 = s.dr6 := rfl

@[simp] theorem State.idle_dr7 (s : State) : (s.idle).dr7 = s.dr7 := rfl

@[simp] theorem State.idle_tr6 (s : State) : (s.idle).tr6 = s.tr6 := rfl

@[simp] theorem State.idle_tr7 (s : State) : (s.idle).tr7 = s.tr7 := rfl

@[simp] theorem State.idle_tlb (s : State) : (s.idle).tlb = s.tlb := rfl

@[simp] theorem State.idle_mem (s : State) : (s.idle).mem = s.mem := rfl

@[simp] theorem State.idle_prefetch (s : State) : (s.idle).prefetch = s.prefetch := rfl

@[simp] theorem State.idle_nmiPending (s : State) : (s.idle).nmiPending = s.nmiPending := rfl

@[simp] theorem State.idle_nmiInService (s : State) : (s.idle).nmiInService = s.nmiInService := rfl

@[simp] theorem State.idle_inhibit (s : State) : (s.idle).inhibit = s.inhibit := rfl

@[simp] theorem State.idle_run (s : State) : (s.idle).run = s.run := rfl

@[simp] theorem State.idle_pend (s : State) : (s.idle).pend = s.pend := rfl

@[simp] theorem State.idle_protocol387 (s : State) : (s.idle).protocol387 = s.protocol387 := rfl

@[simp] theorem State.idle_pins (s : State) : (s.idle).pins = s.pins := rfl

@[simp] theorem State.idle_inputs (s : State) : (s.idle).inputs = s.inputs := rfl

@[simp] theorem State.idle_masters (s : State) : (s.idle).masters = s.masters := rfl

@[simp] theorem State.idle_map (s : State) : (s.idle).map = s.map := rfl

@[simp] theorem State.idle_ports (s : State) : (s.idle).ports = s.ports := rfl

@[simp] theorem State.idle_ioLog (s : State) : (s.idle).ioLog = s.ioLog := rfl

@[simp] theorem State.idle_dec (s : State) :
    (s.idle).dec = InProgress.empty := rfl

@[simp] theorem State.idle_free (s : State) : (s.idle).free = s.free := rfl

/-! What an exception records. -/

@[simp] theorem State.noteExn_regs (s : State) (e : Exn) : (s.noteExn e).regs = s.regs := by
  cases e <;> rfl

@[simp] theorem State.noteExn_eip (s : State) (e : Exn) : (s.noteExn e).eip = s.eip := by
  cases e <;> rfl

@[simp] theorem State.noteExn_flags (s : State) (e : Exn) : (s.noteExn e).flags = s.flags := by
  cases e <;> rfl

@[simp] theorem State.noteExn_segs (s : State) (e : Exn) : (s.noteExn e).segs = s.segs := by
  cases e <;> rfl

@[simp] theorem State.noteExn_cpl (s : State) (e : Exn) : (s.noteExn e).cpl = s.cpl := by
  cases e <;> rfl

@[simp] theorem State.noteExn_cr0 (s : State) (e : Exn) : (s.noteExn e).cr0 = s.cr0 := by
  cases e <;> rfl

@[simp] theorem State.noteExn_cr3 (s : State) (e : Exn) : (s.noteExn e).cr3 = s.cr3 := by
  cases e <;> rfl

@[simp] theorem State.noteExn_gdtr (s : State) (e : Exn) : (s.noteExn e).gdtr = s.gdtr := by
  cases e <;> rfl

@[simp] theorem State.noteExn_idtr (s : State) (e : Exn) : (s.noteExn e).idtr = s.idtr := by
  cases e <;> rfl

@[simp] theorem State.noteExn_ldtr (s : State) (e : Exn) : (s.noteExn e).ldtr = s.ldtr := by
  cases e <;> rfl

@[simp] theorem State.noteExn_tr (s : State) (e : Exn) : (s.noteExn e).tr = s.tr := by
  cases e <;> rfl

@[simp] theorem State.noteExn_dr (s : State) (e : Exn) : (s.noteExn e).dr = s.dr := by
  cases e <;> rfl

@[simp] theorem State.noteExn_tr6 (s : State) (e : Exn) : (s.noteExn e).tr6 = s.tr6 := by
  cases e <;> rfl

@[simp] theorem State.noteExn_tr7 (s : State) (e : Exn) : (s.noteExn e).tr7 = s.tr7 := by
  cases e <;> rfl

@[simp] theorem State.noteExn_tlb (s : State) (e : Exn) : (s.noteExn e).tlb = s.tlb := by
  cases e <;> rfl

@[simp] theorem State.noteExn_mem (s : State) (e : Exn) : (s.noteExn e).mem = s.mem := by
  cases e <;> rfl

@[simp] theorem State.noteExn_prefetch (s : State) (e : Exn) : (s.noteExn e).prefetch = s.prefetch := by
  cases e <;> rfl

@[simp] theorem State.noteExn_nmiPending (s : State) (e : Exn) : (s.noteExn e).nmiPending = s.nmiPending := by
  cases e <;> rfl

@[simp] theorem State.noteExn_nmiInService (s : State) (e : Exn) : (s.noteExn e).nmiInService = s.nmiInService := by
  cases e <;> rfl

@[simp] theorem State.noteExn_inhibit (s : State) (e : Exn) : (s.noteExn e).inhibit = s.inhibit := by
  cases e <;> rfl

@[simp] theorem State.noteExn_run (s : State) (e : Exn) : (s.noteExn e).run = s.run := by
  cases e <;> rfl

@[simp] theorem State.noteExn_pend (s : State) (e : Exn) : (s.noteExn e).pend = s.pend := by
  cases e <;> rfl

@[simp] theorem State.noteExn_protocol387 (s : State) (e : Exn) : (s.noteExn e).protocol387 = s.protocol387 := by
  cases e <;> rfl

@[simp] theorem State.noteExn_pins (s : State) (e : Exn) : (s.noteExn e).pins = s.pins := by
  cases e <;> rfl

@[simp] theorem State.noteExn_inputs (s : State) (e : Exn) : (s.noteExn e).inputs = s.inputs := by
  cases e <;> rfl

@[simp] theorem State.noteExn_masters (s : State) (e : Exn) : (s.noteExn e).masters = s.masters := by
  cases e <;> rfl

@[simp] theorem State.noteExn_map (s : State) (e : Exn) : (s.noteExn e).map = s.map := by
  cases e <;> rfl

@[simp] theorem State.noteExn_ports (s : State) (e : Exn) : (s.noteExn e).ports = s.ports := by
  cases e <;> rfl

@[simp] theorem State.noteExn_ioLog (s : State) (e : Exn) : (s.noteExn e).ioLog = s.ioLog := by
  cases e <;> rfl

@[simp] theorem State.noteExn_dec (s : State) (e : Exn) : (s.noteExn e).dec = s.dec := by
  cases e <;> rfl

@[simp] theorem State.noteExn_free (s : State) (e : Exn) : (s.noteExn e).free = s.free := by
  cases e <;> rfl

/-! What a fault leaves. -/

@[simp] theorem State.afterFault_regs (s t : State) (e : Exn) : (s.afterFault t e).regs = s.regs := by
  simp [afterFault]

@[simp] theorem State.afterFault_eip (s t : State) (e : Exn) : (s.afterFault t e).eip = s.eip := by
  simp [afterFault]

@[simp] theorem State.afterFault_flags (s t : State) (e : Exn) : (s.afterFault t e).flags = s.flags := by
  simp [afterFault]

@[simp] theorem State.afterFault_segs (s t : State) (e : Exn) : (s.afterFault t e).segs = s.segs := by
  simp [afterFault]

@[simp] theorem State.afterFault_cpl (s t : State) (e : Exn) : (s.afterFault t e).cpl = s.cpl := by
  simp [afterFault]

@[simp] theorem State.afterFault_cr0 (s t : State) (e : Exn) : (s.afterFault t e).cr0 = s.cr0 := by
  simp [afterFault]

@[simp] theorem State.afterFault_cr3 (s t : State) (e : Exn) : (s.afterFault t e).cr3 = s.cr3 := by
  simp [afterFault]

@[simp] theorem State.afterFault_gdtr (s t : State) (e : Exn) : (s.afterFault t e).gdtr = s.gdtr := by
  simp [afterFault]

@[simp] theorem State.afterFault_idtr (s t : State) (e : Exn) : (s.afterFault t e).idtr = s.idtr := by
  simp [afterFault]

@[simp] theorem State.afterFault_ldtr (s t : State) (e : Exn) : (s.afterFault t e).ldtr = s.ldtr := by
  simp [afterFault]

@[simp] theorem State.afterFault_tr (s t : State) (e : Exn) : (s.afterFault t e).tr = s.tr := by
  simp [afterFault]

@[simp] theorem State.afterFault_dr (s t : State) (e : Exn) : (s.afterFault t e).dr = s.dr := by
  simp [afterFault]

@[simp] theorem State.afterFault_tr6 (s t : State) (e : Exn) : (s.afterFault t e).tr6 = s.tr6 := by
  simp [afterFault]

@[simp] theorem State.afterFault_tr7 (s t : State) (e : Exn) : (s.afterFault t e).tr7 = s.tr7 := by
  simp [afterFault]

@[simp] theorem State.afterFault_tlb (s t : State) (e : Exn) :
    (s.afterFault t e).tlb = t.tlb := by
  simp [afterFault]

@[simp] theorem State.afterFault_mem (s t : State) (e : Exn) :
    (s.afterFault t e).mem = t.mem := by
  simp [afterFault]

@[simp] theorem State.afterFault_prefetch (s t : State) (e : Exn) :
    (s.afterFault t e).prefetch = t.prefetch := by
  simp [afterFault]

@[simp] theorem State.afterFault_nmiPending (s t : State) (e : Exn) : (s.afterFault t e).nmiPending = s.nmiPending := by
  simp [afterFault]

@[simp] theorem State.afterFault_nmiInService (s t : State) (e : Exn) : (s.afterFault t e).nmiInService = s.nmiInService := by
  simp [afterFault]

@[simp] theorem State.afterFault_inhibit (s t : State) (e : Exn) : (s.afterFault t e).inhibit = s.inhibit := by
  simp [afterFault]

@[simp] theorem State.afterFault_run (s t : State) (e : Exn) : (s.afterFault t e).run = s.run := by
  simp [afterFault]

@[simp] theorem State.afterFault_pend (s t : State) (e : Exn) : (s.afterFault t e).pend = s.pend := by
  simp [afterFault]

@[simp] theorem State.afterFault_protocol387 (s t : State) (e : Exn) : (s.afterFault t e).protocol387 = s.protocol387 := by
  simp [afterFault]

@[simp] theorem State.afterFault_pins (s t : State) (e : Exn) : (s.afterFault t e).pins = s.pins := by
  simp [afterFault]

@[simp] theorem State.afterFault_inputs (s t : State) (e : Exn) : (s.afterFault t e).inputs = s.inputs := by
  simp [afterFault]

@[simp] theorem State.afterFault_masters (s t : State) (e : Exn) :
    (s.afterFault t e).masters = t.masters := by
  simp [afterFault]

@[simp] theorem State.afterFault_map (s t : State) (e : Exn) : (s.afterFault t e).map = s.map := by
  simp [afterFault]

@[simp] theorem State.afterFault_ports (s t : State) (e : Exn) : (s.afterFault t e).ports = s.ports := by
  simp [afterFault]

@[simp] theorem State.afterFault_ioLog (s t : State) (e : Exn) :
    (s.afterFault t e).ioLog = t.ioLog := by
  simp [afterFault]

@[simp] theorem State.afterFault_dec (s t : State) (e : Exn) : (s.afterFault t e).dec = s.dec := by
  simp [afterFault]

@[simp] theorem State.afterFault_free (s t : State) (e : Exn) :
    (s.afterFault t e).free = t.free := by
  simp [afterFault]

/-! Shutdown. -/

@[simp] theorem State.shutDown_run (s : State) : s.shutDown.run = .shutdown := rfl
@[simp] theorem State.shutDown_pend (s : State) : s.shutDown.pend = s.pend := rfl
@[simp] theorem State.shutDown_cr0 (s : State) : s.shutDown.cr0 = s.cr0 := rfl
@[simp] theorem State.shutDown_cr2 (s : State) : s.shutDown.cr2 = s.cr2 := rfl
@[simp] theorem State.shutDown_cr3 (s : State) : s.shutDown.cr3 = s.cr3 := rfl
@[simp] theorem State.shutDown_gdtr (s : State) : s.shutDown.gdtr = s.gdtr := rfl
@[simp] theorem State.shutDown_idtr (s : State) : s.shutDown.idtr = s.idtr := rfl
@[simp] theorem State.shutDown_ldtr (s : State) : s.shutDown.ldtr = s.ldtr := rfl
@[simp] theorem State.shutDown_tr (s : State) : s.shutDown.tr = s.tr := rfl
@[simp] theorem State.shutDown_dr (s : State) : s.shutDown.dr = s.dr := rfl
@[simp] theorem State.shutDown_dr6 (s : State) : s.shutDown.dr6 = s.dr6 := rfl
@[simp] theorem State.shutDown_dr7 (s : State) : s.shutDown.dr7 = s.dr7 := rfl
@[simp] theorem State.shutDown_tr6 (s : State) : s.shutDown.tr6 = s.tr6 := rfl
@[simp] theorem State.shutDown_tr7 (s : State) : s.shutDown.tr7 = s.tr7 := rfl
@[simp] theorem State.shutDown_tlb (s : State) : s.shutDown.tlb = s.tlb := rfl
@[simp] theorem State.shutDown_nmiPending (s : State) : s.shutDown.nmiPending = s.nmiPending := rfl
@[simp] theorem State.shutDown_nmiInService (s : State) : s.shutDown.nmiInService = s.nmiInService := rfl
@[simp] theorem State.shutDown_inhibit (s : State) : s.shutDown.inhibit = s.inhibit := rfl
@[simp] theorem State.shutDown_protocol387 (s : State) : s.shutDown.protocol387 = s.protocol387 := rfl
@[simp] theorem State.shutDown_pins (s : State) : s.shutDown.pins = s.pins := rfl
@[simp] theorem State.shutDown_inputs (s : State) : s.shutDown.inputs = s.inputs := rfl
@[simp] theorem State.shutDown_masters (s : State) : s.shutDown.masters = s.masters := rfl
@[simp] theorem State.shutDown_map (s : State) : s.shutDown.map = s.map := rfl
@[simp] theorem State.shutDown_ports (s : State) : s.shutDown.ports = s.ports := rfl
@[simp] theorem State.shutDown_ioLog (s : State) : s.shutDown.ioLog = s.ioLog := rfl
@[simp] theorem State.shutDown_mem (s : State) : s.shutDown.mem = s.mem := rfl
@[simp] theorem State.shutDown_prefetch (s : State) : s.shutDown.prefetch = s.prefetch := rfl
@[simp] theorem State.shutDown_dec (s : State) : s.shutDown.dec = s.dec := rfl
@[simp] theorem State.shutDown_free (s : State) : s.shutDown.free = s.free + 28 := rfl

/-- In Real Mode shutdown leaves CPL 0 and no Virtual 8086 Mode. -/
theorem State.shutDown_real {s : State} (h : s.cr0.pe = false) : s.shutDown.cpl = 0 ∧ s.shutDown.flags.vm = false := by
  simp [shutDown, h]

/-- In Real Mode shutdown leaves SS and ESP as the interrupted program has them. -/
theorem State.shutDown_real_stack {s : State} (h : s.cr0.pe = false) :
    s.shutDown.segs.ss = s.segs.ss ∧ s.shutDown.regs.esp = s.regs.esp := by
  simp [shutDown, h]

/-- In Real Mode shutdown leaves a segment register as it was or as a Real Mode load leaves it. -/
theorem State.shutDown_real_seg {s : State} (h : s.cr0.pe = false) (sr : Sreg) :
    s.shutDown.segs.get sr = s.segs.get sr ∨ ∃ sel, s.shutDown.segs.get sr = (s.segs.get sr).loadReal sel := by
  have key (old : SegReg) (a b c : Dword) :
      old.inShutdown false false a b c = old ∨ ∃ sel, old.inShutdown false false a b c = old.loadReal sel := by
    unfold SegReg.inShutdown
    cases a.getLsbD 16
    · exact .inl rfl
    · exact .inr ⟨_, rfl⟩
  cases sr <;> simp only [shutDown, h, Bool.false_and, Segs.get] <;> first | exact key .. | exact .inl rfl

/-- Shutdown in Virtual 8086 Mode leaves CPL 3. -/
theorem State.shutDown_virtual {s : State} (h : s.shutDown.flags.vm = true) : s.shutDown.cpl = 3 :=
  if_pos h

end Sys2Proof.Machine
end

