-- ==== Sys2Proof/Laws/Bus.lean ====
section
/-! SUPPORT. The bus: what its cycles can change, and what they do in the closed world, where memory answers every
address and no other master writes. -/

namespace Sys2Proof.Machine

/-! Any world. -/

theorem State.kindAt_none {s : State} (h : s.map = []) (p : Dword) : s.kindAt p = .ram := by
  simp [kindAt, h]

theorem State.wf_takeWrite {s : State} (x : BusWrite) (h : s.mem.wf = true) : (s.takeWrite x).mem.wf = true := by
  unfold takeWrite
  split
  · exact Memory.wf_write _ h x.addr.isLt
  · exact h

/-- What other masters write keeps the canonical form. -/
theorem State.wf_othersWrite {s : State} (h : s.mem.wf = true) : s.othersWrite.mem.wf = true := by
  have key : ∀ (xs : List BusWrite) (u : State), u.mem.wf = true → (xs.foldl takeWrite u).mem.wf = true := by
    intro xs
    induction xs with
    | nil => exact fun u hu => hu
    | cons x xs ih => exact fun u hu => ih _ (wf_takeWrite x hu)
  unfold othersWrite
  split
  · exact h
  · exact key _ _ h

/-- What bus cycles may change. -/
structure Bused (s u : State) : Prop where
  rest : u = { s with mem := u.mem, prefetch := u.prefetch, free := u.free, ioLog := u.ioLog, masters := u.masters }
  wf : s.mem.wf = true → u.mem.wf = true

theorem Bused.refl (s : State) : Bused s s := ⟨rfl, id⟩

theorem Bused.trans {s u v : State} (h : Bused s u) (k : Bused u v) : Bused s v :=
  ⟨by rw [k.rest, h.rest], fun m => k.wf (h.wf m)⟩

/-- The moment before a cycle. -/
theorem Bused.gap (s : State) : Bused s (if s.dec.held then s else s.othersWrite) := by
  split
  · exact .refl s
  · exact ⟨by rw [s.othersWrite_eq], s.wf_othersWrite⟩

theorem readCycle_bused (ps : List Dword) (s : State) : ∃ v u, readCycle ps s = .ok v u ∧ Bused s u := by
  unfold readCycle
  rw [M.bind_ok (busGap_apply s), M.get_bind_apply]
  have hg := Bused.gap s
  generalize (if s.dec.held then s else s.othersWrite) = t at hg
  cases t.kindAt (ps.headD 0)
  · exact ⟨_, _, rfl, hg⟩
  · exact ⟨_, _, rfl, hg⟩
  · exact ⟨_, _, rfl, hg.trans ⟨rfl, id⟩⟩
  · exact ⟨_, _, rfl, hg.trans ⟨rfl, id⟩⟩

theorem writeCycle_bused (ps : List Dword) (v : Nat) (s : State) : ∃ u, writeCycle ps v s = .ok () u ∧ Bused s u := by
  unfold writeCycle
  rw [M.bind_ok (busGap_apply s), M.get_bind_apply]
  have hg := Bused.gap s
  generalize (if s.dec.held then s else s.othersWrite) = t at hg
  cases t.kindAt (ps.headD 0)
  · refine ⟨_, rfl, hg.trans ⟨?_, fun m => ?_⟩⟩
    · dsimp only; rw [State.putBytes_eq]
    · dsimp only; rw [State.putBytes_mem]; exact Memory.wf_writeAt _ _ m
  · exact ⟨_, rfl, hg⟩
  · exact ⟨_, rfl, hg.trans ⟨rfl, id⟩⟩
  · exact ⟨_, rfl, hg⟩

theorem logPorts_apply (write : Bool) (ps : List Dword) (v : Nat) (s : State) :
    logPorts write ps v s =
      .ok () { s with ioLog := if s.portBytes ps v = [] then s.ioLog else .port write (s.portBytes ps v) :: s.ioLog } := by
  unfold logPorts
  rw [M.get_bind_apply]
  cases s.portBytes ps v <;> rfl

theorem logPorts_bused (write : Bool) (ps : List Dword) (v : Nat) (s : State) :
    ∃ u, logPorts write ps v s = .ok () u ∧ Bused s u :=
  ⟨_, logPorts_apply .., rfl, id⟩

theorem portReadCycle_bused (ps : List Dword) (s : State) : ∃ v u, portReadCycle ps s = .ok v u ∧ Bused s u := by
  unfold portReadCycle
  rw [M.bind_ok (busGap_apply s), draw_bind_apply]
  have hg := Bused.gap s
  generalize (if s.dec.held then s else s.othersWrite) = t at hg
  obtain ⟨u, e, h⟩ := logPorts_bused false ps (((Config.freeValue t.free).setWidth 32).toNat % 256 ^ ps.length)
    { t with free := t.free + 1 }
  exact ⟨_, u, M.bind_ok e _, hg.trans ⟨by rw [h.rest], h.wf⟩⟩

theorem portWriteCycle_bused (ps : List Dword) (v : Nat) (s : State) :
    ∃ u, portWriteCycle ps v s = .ok () u ∧ Bused s u := by
  unfold portWriteCycle
  rw [M.bind_ok (busGap_apply s)]
  obtain ⟨u, e, h⟩ := logPorts_bused true ps v (if s.dec.held then s else s.othersWrite)
  exact ⟨u, e, (Bused.gap s).trans h⟩

/-- An operand read by cycles that always answer. -/
theorem readCycles_bused {f : List Dword → M Nat} (hf : ∀ ps s, ∃ v u, f ps s = .ok v u ∧ Bused s u)
    (cs : List (List Dword)) (s : State) : ∃ v u, readCycles f cs s = .ok v u ∧ Bused s u := by
  induction cs with
  | nil => exact ⟨_, _, rfl, .refl s⟩
  | cons c cs ih =>
    obtain ⟨a, u, e, h⟩ := ih
    obtain ⟨b, v, g, k⟩ := hf c u
    exact ⟨_, _, by rw [readCycles, M.bind_ok e, M.bind_ok g]; rfl, h.trans k⟩

/-- An operand written by cycles that always complete. -/
theorem writeCycles_bused {f : List Dword → Nat → M Unit} (hf : ∀ ps v s, ∃ u, f ps v s = .ok () u ∧ Bused s u)
    (cs : List (List Dword)) (v : Nat) (s : State) : ∃ u, writeCycles f cs v s = .ok () u ∧ Bused s u := by
  induction cs generalizing v with
  | nil => exact ⟨_, rfl, .refl s⟩
  | cons c cs ih =>
    obtain ⟨u, e, h⟩ := ih (v / 256 ^ c.length)
    obtain ⟨w, g, k⟩ := hf c v u
    exact ⟨_, by rw [writeCycles, M.bind_ok e, g], h.trans k⟩

/-- A read always answers. -/
theorem memRead_bused (ps : List Dword) (s : State) : ∃ v u, memRead ps s = .ok v u ∧ Bused s u :=
  readCycles_bused readCycle_bused _ _

/-- A write always completes. -/
theorem memWrite_bused (ps : List Dword) (v : Nat) (s : State) : ∃ u, memWrite ps v s = .ok () u ∧ Bused s u :=
  writeCycles_bused writeCycle_bused _ _ _

/-- A port read always answers. -/
theorem ioRead_bused (port : Nat) (w : Width) (s : State) : ∃ v u, ioRead port w s = .ok v u ∧ Bused s u := by
  obtain ⟨v, u, e, h⟩ := readCycles_bused portReadCycle_bused (portCycles port w.bytes) s
  exact ⟨_, u, M.bind_ok e _, h⟩

/-- A port write always completes. -/
theorem ioWrite_bused (port : Nat) (w : Width) (v : BitVec w.bits) (s : State) :
    ∃ u, ioWrite port w v s = .ok () u ∧ Bused s u := writeCycles_bused portWriteCycle_bused _ _ _

/-- A locked read-modify-write always completes, and LOCK# is afterwards as before. -/
theorem lockedModify_bused (ps : List Dword) (f : Nat → Nat) (s : State) :
    ∃ u, lockedModify ps f s = .ok () u ∧ Bused s u := by
  let t : State := if s.dec.held then s else s.othersWrite
  have ht : Bused s t := .gap s
  have e : assertLock s = .ok () { t with dec := { t.dec with held := true } } := rfl
  obtain ⟨v, u, hr, ku⟩ := memRead_bused ps { t with dec := { t.dec with held := true } }
  obtain ⟨w, hw, kw⟩ := memWrite_bused ps (f v) u
  refine ⟨{ w with dec := { w.dec with held := s.dec.held } }, ?_, ?_, fun m => ?_⟩
  · unfold lockedModify
    rw [M.get_bind_apply, M.bind_ok e, M.bind_ok hr, M.bind_ok hw]
    rfl
  · rw [kw.rest, ku.rest, ht.rest]
  · exact kw.wf (ku.wf (ht.wf m))

/-! The closed world. -/

theorem State.closed_iff {s : State} : s.closed = true ↔ s.mem.wf = true ∧ s.masters = [] ∧ s.map = [] := by
  simp [closed, and_assoc]

theorem State.closed_wf {s : State} (h : s.closed = true) : s.mem.wf = true := (closed_iff.1 h).1
theorem State.closed_masters {s : State} (h : s.closed = true) : s.masters = [] := (closed_iff.1 h).2.1
theorem State.closed_map {s : State} (h : s.closed = true) : s.map = [] := (closed_iff.1 h).2.2

/-- Writing bytes keeps the closed world. -/
theorem State.closed_putBytes {s : State} (ps : List Dword) (v : Nat) (h : s.closed = true) :
    (s.putBytes ps v).closed = true := by
  rw [closed_iff] at h ⊢
  rw [putBytes_mem, putBytes_masters, putBytes_map]
  exact ⟨Memory.wf_writeAt _ _ h.1, h.2⟩

/-- Splitting into cycles loses no byte. -/
@[simp] theorem flatten_busCycles (ps : List Dword) : (busCycles ps).flatten = ps := by
  induction ps using busCycles.induct with
  | case1 => rfl
  | case2 p => rfl
  | case3 p q ps h ih => rw [busCycles, h]; simp [h] at ih
  | case4 p q ps c cs h hq ih => 
    rw [h] at ih
    rw [busCycles, h]
    dsimp only
    rw [if_pos hq, List.flatten_cons, ih]
    rfl
  | case5 p q ps c cs h hq ih => 
    rw [h] at ih
    rw [busCycles, h]
    dsimp only
    rw [if_neg hq, List.flatten_cons, List.cons_append, ← List.flatten_cons, ih]

theorem Memory.readAt_append (m : Memory) (ps qs : List Dword) :
    m.readAt (ps ++ qs) = m.readAt ps + 256 ^ ps.length * m.readAt qs := by
  induction ps with
  | nil => simp [readAt]
  | cons p ps ih => rw [List.cons_append, readAt, readAt, ih, List.length_cons]; ring

theorem State.putBytes_append (s : State) (ps qs : List Dword) (v : Nat) :
    s.putBytes (ps ++ qs) v = (s.putBytes qs (v / 256 ^ ps.length)).putBytes ps v := by
  induction ps generalizing v with
  | nil => simp [putBytes]
  | cons p ps ih =>
    rw [List.cons_append, putBytes, putBytes, ih, List.length_cons, Nat.div_div_eq_div_mul, pow_succ, Nat.mul_comm]

theorem busGap_none {s : State} (h : s.masters = []) : busGap s = .ok () s := by
  rw [busGap_apply, State.othersWrite_none h, ite_self]

theorem readCycle_ram {s : State} (h : s.masters = []) (k : s.map = []) (ps : List Dword) :
    readCycle ps s = .ok (s.mem.readAt ps) s := by
  unfold readCycle
  rw [M.bind_ok (busGap_none h), M.get_bind_apply, State.kindAt_none k]
  rfl

theorem writeCycle_ram {s : State} (h : s.masters = []) (k : s.map = []) (ps : List Dword) (v : Nat) :
    writeCycle ps v s = .ok () (s.putBytes ps v) := by
  unfold writeCycle
  rw [M.bind_ok (busGap_none h), M.get_bind_apply, State.kindAt_none k]
  rfl

/-- A read in a world of RAM alone gives the bytes there. -/
theorem memRead_ram {s : State} (h : s.masters = []) (k : s.map = []) (ps : List Dword) :
    memRead ps s = .ok (s.mem.readAt ps) s := by
  have key : ∀ cs : List (List Dword), readCycles readCycle cs s = .ok (s.mem.readAt cs.flatten) s := by
    intro cs
    induction cs with
    | nil => rfl
    | cons c cs ih =>
      rw [readCycles, M.bind_ok ih, M.bind_ok (readCycle_ram h k c), List.flatten_cons, Memory.readAt_append]
      rfl
  rw [memRead, key, flatten_busCycles]

/-- A write in a world of RAM alone stores the bytes. -/
theorem memWrite_ram {s : State} (h : s.masters = []) (k : s.map = []) (ps : List Dword) (v : Nat) :
    memWrite ps v s = .ok () (s.putBytes ps v) := by
  have key : ∀ (cs : List (List Dword)) (v : Nat), writeCycles writeCycle cs v s = .ok () (s.putBytes cs.flatten v) := by
    intro cs
    induction cs with
    | nil => exact fun _ => rfl
    | cons c cs ih =>
      intro v
      rw [writeCycles, M.bind_ok (ih _), writeCycle_ram (by simpa using h) (by simpa using k), List.flatten_cons,
        State.putBytes_append]
  rw [memWrite, key, flatten_busCycles]

theorem memRead_closed {s : State} (h : s.closed = true) (ps : List Dword) :
    memRead ps s = .ok (s.mem.readAt ps) s := memRead_ram (s.closed_masters h) (s.closed_map h) ps

theorem memWrite_closed {s : State} (h : s.closed = true) (ps : List Dword) (v : Nat) :
    memWrite ps v s = .ok () (s.putBytes ps v) := memWrite_ram (s.closed_masters h) (s.closed_map h) ps v

/-- In the closed world reading located places gives what stands in memory, and changes nothing. -/
theorem memReadAll_closed {s : State} (h : s.closed = true) (ls : List (List Dword)) :
    memReadAll ls s = .ok (ls.map s.mem.readAt) s := by
  induction ls with
  | nil => rfl
  | cons p ps ih => exact (M.bind_ok (memRead_closed h p) _).trans ((M.bind_ok ih _).trans rfl)

/-- Writing bytes looks at nothing of the instruction in progress. -/
theorem State.putBytes_withDec (s : State) (d : InProgress) (ps : List Dword) (v : Nat) :
    ({ s with dec := d } : State).putBytes ps v = { s.putBytes ps v with dec := d } := by
  induction ps generalizing v with
  | nil => rfl
  | cons p ps ih => rw [putBytes, putBytes, ih]; rfl

/-- A locked read-modify-write in a world of RAM alone. -/
theorem lockedModify_closed {s : State} (h : s.closed = true) (ps : List Dword) (f : Nat → Nat) :
    lockedModify ps f s = .ok () (s.putBytes ps (f (s.mem.readAt ps))) := by
  have hm := s.closed_masters h
  have hk := s.closed_map h
  have e : assertLock s = .ok () { s with dec := { s.dec with held := true } } := by
    unfold assertLock
    rw [M.bind_ok (busGap_none hm)]
    rfl
  unfold lockedModify
  rw [M.get_bind_apply, M.bind_ok e, M.bind_ok (memRead_ram (by exact hm) (by exact hk) ps),
    M.bind_ok (memWrite_ram (by exact hm) (by exact hk) ps _), M.modify_apply, State.putBytes_withDec]
  have hd := s.putBytes_dec ps (f (s.mem.readAt ps))
  generalize s.putBytes ps (f (s.mem.readAt ps)) = u at hd
  rw [← hd]

end Sys2Proof.Machine
end

