-- ==== Sys2Proof/Laws/Access.lean ====
section
/-! SUPPORT. What an access can do: every operation that locates bytes (translation, segment checks, operands, stack
items) only touches the state in the sense of `Touched`, whether it answers or raises. -/

namespace Sys2Proof.Machine

variable {α β : Type}

theorem SameByte.rfl' {p : Bool} {x : Byte} : SameByte p x x := by
  unfold SameByte; split <;> rfl

theorem SameByte.trans {p : Bool} {x y z : Byte} (h : SameByte p x y) (k : SameByte p y z) : SameByte p x z := by
  unfold SameByte at *; split at * <;> simp_all

/-- Equal bytes are the same. -/
theorem SameByte.of_eq {p : Bool} {x y : Byte} (h : x = y) : SameByte p x y := h ▸ SameByte.rfl'

theorem Touched.refl (s : State) : Touched s s where
  rest := rfl
  wf := id
  tlb := id
  closed h := ⟨s.closed_masters h, rfl⟩
  bytes _ _ := SameByte.rfl'
  direct _ _ := rfl

theorem Touched.cr0 {s u : State} (h : Touched s u) : u.cr0 = s.cr0 := by rw [h.rest]

/-- An access leaves the world closed. -/
theorem Touched.stays {s u : State} (h : Touched s u) (c : s.closed = true) : u.closed = true :=
  State.closed_iff.2 ⟨h.wf (s.closed_wf c), (h.closed c).1, by rw [h.rest]; exact s.closed_map c⟩

theorem Touched.trans {s u v : State} (h : Touched s u) (k : Touched u v) : Touched s v where
  rest := by rw [k.rest, h.rest]
  wf m := k.wf (h.wf m)
  tlb m := k.tlb (h.tlb m)
  closed c := ⟨(k.closed (h.stays c)).1, (k.closed (h.stays c)).2.trans (h.closed c).2⟩
  bytes c a := by
    have := k.bytes (h.stays c) a
    rw [h.cr0] at this
    exact this.trans (h.bytes c a)
  direct c m := by
    have e := k.direct (h.stays c) (by rw [h.cr0, m])
    rw [h.direct c m] at e
    exact e

/-- Bus cycles that change nothing in the closed world. -/
theorem Touched.bused {s u : State} (h : Bused s u) (k : s.closed = true → u = s) : Touched s u where
  rest := by rw [h.rest]
  wf := h.wf
  tlb m := by rw [h.rest]; exact m
  closed c := by rw [k c]; exact ⟨s.closed_masters c, rfl⟩
  bytes c a := by rw [k c]; exact SameByte.rfl'
  direct c _ := by rw [k c]

/-- A meaning that only touches the state. -/
def Touches (x : M α) : Prop := ∀ s, (∀ a u, x s = .ok a u → Touched s u) ∧ ∀ e u, x s = .error e u → Touched s u

/-- A meaning that only touches the state when paging is on. -/
def Walks (x : M α) : Prop :=
  ∀ s, s.cr0.pg = true → (∀ a u, x s = .ok a u → Touched s u) ∧ ∀ e u, x s = .error e u → Touched s u

theorem Touches.walks {x : M α} (h : Touches x) : Walks x := fun s _ => h s

theorem Touches.pure (a : α) : Touches (pure a : M α) :=
  fun s => ⟨fun _ _ h => by cases h; exact .refl s, fun _ _ h => by cases h⟩

theorem Touches.stop (t : Trap) : Touches (fun s => .error t s : M α) :=
  fun s => ⟨fun _ _ h => (nomatch h), fun _ _ h => by cases h; exact .refl s⟩

theorem Touches.bind {x : M α} {f : α → M β} (hx : Touches x) (hf : ∀ a, Touches (f a)) : Touches (x >>= f) := by
  intro s
  rw [M.bind_apply]
  constructor <;> intro a u h <;> split at h
  · exact ((hx s).1 _ _ ‹_›).trans ((hf _ _).1 _ _ h)
  · cases h
  · exact ((hx s).1 _ _ ‹_›).trans ((hf _ _).2 _ _ h)
  · cases h; exact (hx s).2 _ _ ‹_›

theorem Walks.bind {x : M α} {f : α → M β} (hx : Walks x) (hf : ∀ a, Walks (f a)) : Walks (x >>= f) := by
  intro s hp
  rw [M.bind_apply]
  constructor <;> intro a u h <;> split at h
  · have k := (hx s hp).1 _ _ ‹_›
    exact k.trans ((hf _ _ (by rw [k.cr0, hp])).1 _ _ h)
  · cases h
  · have k := (hx s hp).1 _ _ ‹_›
    exact k.trans ((hf _ _ (by rw [k.cr0, hp])).2 _ _ h)
  · cases h; exact (hx s hp).2 _ _ ‹_›

theorem Touches.get : Touches (get : M State) := fun s => ⟨fun _ _ h => by cases h; exact .refl s, fun _ _ h => by cases h⟩

theorem Touches.map {x : M α} (g : α → β) (hx : Touches x) : Touches (g <$> x) := by
  rw [map_eq_pure_bind]
  exact hx.bind fun a => .pure (g a)

theorem Touches.require (b : Bool) (e : Exn) : Touches (require b e) := by
  cases b
  · exact .stop _
  · exact .pure ()

theorem Touches.raise (e : Exn) : Touches (raise e : M α) := .stop _

theorem Touches.memRead (ps : List Dword) : Touches (memRead ps) := by
  intro s
  obtain ⟨v, u, e, h⟩ := memRead_bused ps s
  refine ⟨fun a t k => ?_, fun x t k => by rw [e] at k; cases k⟩
  have : u = t := by rw [e] at k; cases k; rfl
  subst this
  refine .bused h fun c => ?_
  rw [memRead_closed c] at e
  cases e
  rfl

theorem Touches.busGap : Touches busGap := by
  intro s
  refine ⟨fun a u h => ?_, fun e u h => nomatch h⟩
  rw [busGap_apply] at h
  cases h
  exact .bused (.gap s) fun c => by rw [State.othersWrite_none (s.closed_masters c), ite_self]

theorem Touches.assertLock : Touches assertLock := by
  refine Touches.busGap.bind fun _ s => ⟨fun a u h => ?_, fun e u h => nomatch h⟩
  cases h
  exact ⟨rfl, id, id, fun c => ⟨s.closed_masters c, rfl⟩, fun _ _ => .rfl', fun _ _ => rfl⟩

theorem Touches.ite {x y : M α} {c : Prop} [Decidable c] (hx : Touches x) (hy : Touches y) :
    Touches (if c then x else y) := by
  split <;> assumption

/-- Drawing a free value only touches the state when paging is on. -/
theorem Walks.draw (n : Nat) : Walks (draw n) := by
  intro s hp
  refine ⟨fun a u h => ?_, fun e u h => by cases h⟩
  cases h
  exact ⟨rfl, id, id, fun c => ⟨s.closed_masters c, rfl⟩, fun _ _ => .rfl', fun _ h => by simp [hp] at h⟩

theorem Walks.tlbPut (way : Nat) (e : Option TlbEntry) (page : BitVec 20) : Walks (tlbPut way e page) := by
  intro s hp
  refine ⟨fun a u h => ?_, fun e u h => by cases h⟩
  cases h
  exact ⟨rfl, id, fun h => by simp [h], fun c => ⟨s.closed_masters c, rfl⟩, fun _ _ => .rfl',
    fun _ h => by simp [hp] at h⟩

theorem Walks.tlbInsert (e : TlbEntry) : Walks (tlbInsert e) := by
  refine Touches.get.walks.bind fun s => ?_
  split
  · exact Walks.tlbPut _ _ _
  · exact (Walks.draw 2).bind fun v => Walks.tlbPut _ _ _

theorem toNat_one32 : (1 : Dword).toNat = 1 := rfl

/-- The bytes of a run of addresses. -/
theorem mem_addrRun {a p : Dword} {n : Nat} : p ∈ addrRun a n ↔ ∃ k < n, p = a + BitVec.ofNat 32 k := by
  induction n generalizing a with
  | zero => simp [addrRun]
  | succ n ih =>
    simp only [addrRun, List.mem_cons, ih]
    constructor
    · rintro (rfl | ⟨k, hk, rfl⟩)
      · exact ⟨0, by omega, by simp⟩
      · refine ⟨k + 1, by omega, BitVec.eq_of_toNat_eq ?_⟩
        simp only [BitVec.toNat_add, BitVec.toNat_ofNat, toNat_one32]
        omega
    · rintro ⟨k, hk, rfl⟩
      rcases k with _ | k
      · simp
      · refine .inr ⟨k, by omega, BitVec.eq_of_toNat_eq ?_⟩
        simp only [BitVec.toNat_add, BitVec.toNat_ofNat, toNat_one32]
        omega

@[simp] theorem length_addrRun (a : Dword) (n : Nat) : (addrRun a n).length = n := by
  induction n generalizing a with
  | zero => rfl
  | succ n ih => simp [addrRun, ih]

/-- The bytes of a run of addresses differ. -/
theorem nodup_addrRun (a : Dword) {n : Nat} (h : n ≤ 2 ^ 32) : (addrRun a n).Nodup := by
  induction n generalizing a with
  | zero => simp [addrRun]
  | succ n ih =>
    refine List.nodup_cons.2 ⟨fun hm => ?_, ih _ (by omega)⟩
    obtain ⟨k, hk, e⟩ := mem_addrRun.1 hm
    have e' := congrArg BitVec.toNat e
    have := a.isLt
    simp only [BitVec.toNat_add, BitVec.toNat_ofNat, toNat_one32] at e'
    omega

theorem toNat_append8 {n : Nat} (x : BitVec n) (y : Byte) : (x ++ y).toNat = 256 * x.toNat + y.toNat := by
  have := y.isLt
  rw [BitVec.toNat_append, ← Nat.shiftLeft_add_eq_or_of_lt this, Nat.shiftLeft_eq]
  omega

/-- The four bytes of a doubleword. -/
theorem bytes_of_append (b3 b2 b1 b0 : Byte) :
    (b3 ++ b2 ++ b1 ++ b0).extractLsb' 0 8 = b0 ∧ (b3 ++ b2 ++ b1 ++ b0).extractLsb' 8 8 = b1 ∧
    (b3 ++ b2 ++ b1 ++ b0).extractLsb' 16 8 = b2 ∧ (b3 ++ b2 ++ b1 ++ b0).extractLsb' 24 8 = b3 := by
  have := b0.isLt
  have := b1.isLt
  have := b2.isLt
  have := b3.isLt
  refine ⟨?_, ?_, ?_, ?_⟩ <;> apply BitVec.eq_of_toNat_eq <;>
    simp only [BitVec.extractLsb'_toNat, toNat_append8, Nat.shiftRight_eq_div_pow] <;> omega

theorem ofNat8_div (x : Dword) (i : Nat) : BitVec.ofNat 8 (x.toNat / 2 ^ i) = x.extractLsb' i 8 := by
  apply BitVec.eq_of_toNat_eq
  simp [Nat.shiftRight_eq_div_pow]

/-- Four bytes as a doubleword. -/
theorem Memory.readAt_four (m : Memory) (p q r t : Dword) :
    BitVec.ofNat 32 (m.readAt [p, q, r, t]) = m.read t.toNat ++ m.read r.toNat ++ m.read q.toNat ++ m.read p.toNat := by
  apply BitVec.eq_of_toNat_eq
  simp only [toNat_append8, BitVec.toNat_ofNat, readAt]
  omega

/-- Setting bits 5 and 6 of a doubleword in memory changes only those bits of its low byte. -/
theorem Memory.read_writeAt_or {m : Memory} (hm : m.wf = true) (p q r t : Dword) (hd : [p, q, r, t].Nodup)
    (k : Dword) (hk : k &&& 0xFFFFFF9F = 0) (a : Dword) :
    ((m.writeAt [p, q, r, t] (BitVec.ofNat 32 (m.readAt [p, q, r, t]) ||| k).toNat).read a.toNat) &&& 0x9F
      = m.read a.toNat &&& 0x9F := by
  by_cases h : a ∈ [p, q, r, t]
  swap
  · rw [read_writeAt_other _ _ h]
  have hw := fun v => wf_write v hm t.isLt
  have hw2 := fun v v' => wf_write v' (hw v) r.isLt
  have hw3 := fun v v' v'' => wf_write v'' (hw2 v v') q.isLt
  simp only [List.nodup_cons, List.mem_cons, List.not_mem_nil, not_or] at hd
  obtain ⟨⟨pq, pr, pt, -⟩, ⟨qr, qt, -⟩, ⟨rt, -⟩, -⟩ := hd
  have ne : ∀ {x y : Dword}, x ≠ y → y.toNat ≠ x.toNat := fun h e => h (BitVec.eq_of_toNat_eq e.symm)
  have or_ (x : Dword) (i : Nat) : (x ||| k).extractLsb' i 8 = x.extractLsb' i 8 ||| k.extractLsb' i 8 := by
    ext; simp
  have and_ (i : Nat) : k.extractLsb' i 8 &&& (0xFFFFFF9F : Dword).extractLsb' i 8 = 0 := by
    have h : k.extractLsb' i 8 &&& (0xFFFFFF9F : Dword).extractLsb' i 8 = (k &&& 0xFFFFFF9F).extractLsb' i 8 := by
      ext; simp
    rw [h, hk]
    ext; simp
  have z0 : k.extractLsb' 0 8 &&& 0x9F = 0 := and_ 0
  have z1 : k.extractLsb' 8 8 = 0 := BitVec.and_allOnes.symm.trans (and_ 8)
  have z2 : k.extractLsb' 16 8 = 0 := BitVec.and_allOnes.symm.trans (and_ 16)
  have z3 : k.extractLsb' 24 8 = 0 := BitVec.and_allOnes.symm.trans (and_ 24)
  obtain ⟨e0, e1, e2, e3⟩ := bytes_of_append (m.read t.toNat) (m.read r.toNat) (m.read q.toNat) (m.read p.toNat)
  have d0 (x : Dword) : BitVec.ofNat 8 x.toNat = x.extractLsb' 0 8 := by simpa using ofNat8_div x 0
  have d1 (x : Dword) := ofNat8_div x 8
  have d2 (x : Dword) := ofNat8_div x 16
  have d3 (x : Dword) := ofNat8_div x 24
  norm_num only at d1 d2 d3
  revert a
  simp only [List.forall_mem_cons, writeAt, Nat.div_div_eq_div_mul, readAt_four]
  norm_num only
  rw [d0, d1, d2, d3, read_write_same _ _ _ (hw3 ..), read_write_other _ _ (ne pq).symm.symm,
    read_write_same _ _ _ (hw2 ..), read_write_other _ _ (ne pr), read_write_other _ _ (ne qr),
    read_write_same _ _ _ (hw _), read_write_other _ _ (ne pt), read_write_other _ _ (ne qt),
    read_write_other _ _ (ne rt), read_write_same _ _ _ hm]
  have dist (x y z : Byte) : (x ||| y) &&& z = (x &&& z) ||| (y &&& z) := by
    ext; simp [Bool.and_or_distrib_right]
  simp only [or_, e0, e1, e2, e3, z1, z2, z3, dist, z0]
  exact ⟨BitVec.or_zero, BitVec.or_zero, BitVec.or_zero, BitVec.or_zero, fun _ h => nomatch h⟩

/-- Setting A and D bits of a page table entry only touches the state. -/
theorem Walks.updateEntry (needed : Bool) (at_ : Dword) {k : Dword} (hk : k &&& 0xFFFFFF9F = 0) :
    Walks (updateEntry needed (addrRun at_ 4) k) := by
  cases needed
  · exact (Touches.pure ()).walks
  intro s hp
  obtain ⟨u, e, h⟩ := lockedModify_bused (addrRun at_ 4) (fun v => (BitVec.ofNat 32 v ||| k).toNat) s
  refine ⟨fun a t h' => ?_, fun x t h' => by
    rw [show Machine.updateEntry true (addrRun at_ 4) k = lockedModify _ _ from rfl, e] at h'; cases h'⟩
  have : u = t := by
    rw [show Machine.updateEntry true (addrRun at_ 4) k = lockedModify _ _ from rfl, e] at h'; cases h'; rfl
  subst this
  have hc : s.closed = true →
      u = s.putBytes (addrRun at_ 4) (BitVec.ofNat 32 (s.mem.readAt (addrRun at_ 4)) ||| k).toNat := fun c => by
    rw [lockedModify_closed c] at e
    cases e
    rfl
  refine ⟨by rw [h.rest], h.wf, fun m => by rw [h.rest]; exact m, fun c => ?_, fun c a => ?_,
    fun _ m => by simp [hp] at m⟩
  · rw [hc c, State.putBytes_masters, State.putBytes_ioLog]
    exact ⟨s.closed_masters c, rfl⟩
  · rw [hp, hc c, State.putBytes_mem]
    exact Memory.read_writeAt_or (s.closed_wf c) _ _ _ _ (nodup_addrRun at_ (n := 4) (by decide)) k hk a

/-- A page walk only touches the state. -/
theorem Walks.pageWalk (lin : Dword) (write user : Bool) : Walks (pageWalk lin write user) := by
  refine Touches.get.walks.bind fun s => ((Touches.memRead _).bind fun _ => .pure _).walks.bind fun pde =>
    (Touches.require _ _).walks.bind fun _ => ((Touches.memRead _).bind fun _ => .pure _).walks.bind fun pte =>
    (Touches.require _ _).walks.bind fun _ => (Touches.require _ _).walks.bind fun _ =>
    (Walks.updateEntry _ _ rfl).bind fun _ => (Walks.updateEntry _ _ (by cases write <;> rfl)).bind fun _ =>
    (Walks.tlbInsert _).bind fun _ => (Touches.pure _).walks

/-- Address translation only touches the state. -/
theorem Touches.translate (lin : Dword) (write sys : Bool) : Touches (translate lin write sys) := by
  intro s
  unfold Machine.translate
  rw [M.get_bind_apply]
  by_cases hp : s.cr0.pg = true
  · rw [if_neg (by simp [hp])]
    revert hp
    refine fun hp => (?_ : Walks _) s hp
    rcases tlbMatches s.tlb (pageOf lin) with _ | ⟨e, _ | ⟨e', es⟩⟩
    · exact Walks.pageWalk _ _ _
    · dsimp only
      split
      · exact ((Touches.require _ _).bind fun _ => .pure _).walks
      · exact Walks.pageWalk _ _ _
    · exact (Touches.stop _).walks
  · rw [if_pos (by simp [hp])]
    exact Touches.pure _ s

/-- Locating the bytes of a linear range only touches the state. -/
theorem Touches.linLocate (lin : Dword) (n : Nat) (write sys : Bool) : Touches (linLocate lin n write sys) := by
  refine Touches.get.bind fun s => ?_
  dsimp only
  split
  · exact (Touches.translate _ _ _).bind fun _ => .pure _
  · exact (Touches.translate _ _ _).bind fun _ => (Touches.translate _ _ _).bind fun _ => .pure _

theorem Touches.recordAccess (lin : Dword) (n : Nat) (write : Bool) : Touches (recordAccess lin n write) := by
  intro s
  refine ⟨fun a u h => ?_, fun e u h => nomatch h⟩
  cases h
  exact ⟨rfl, id, id, fun c => ⟨s.closed_masters c, rfl⟩, fun _ _ => .rfl', fun _ _ => rfl⟩

/-- Locating the bytes of a data access only touches the state. -/
theorem Touches.segLocate (sr : Sreg) (off : Dword) (n : Nat) (write : Bool) : Touches (segLocate sr off n write) := by
  refine Touches.get.bind fun s => ?_
  dsimp only
  split
  · exact .raise _
  · exact (Touches.recordAccess _ _ _).bind fun _ => .linLocate _ _ _ _

theorem Touches.sysRead (lin : Dword) (n : Nat) : Touches (sysRead lin n) :=
  (Touches.linLocate _ _ _ _).bind fun _ => .memRead _

theorem Touches.sysRead16 (lin : Dword) : Touches (sysRead16 lin) := (Touches.sysRead _ _).bind fun _ => .pure _

theorem Touches.sysRead32 (lin : Dword) : Touches (sysRead32 lin) := (Touches.sysRead _ _).bind fun _ => .pure _

theorem Touches.pushLocate (n k : Nat) : Touches (pushLocate n k) := Touches.get.bind fun _ => .segLocate _ _ _ _

theorem Touches.popLocate (n k : Nat) : Touches (popLocate n k) := Touches.get.bind fun _ => .segLocate _ _ _ _

theorem Touches.locatePushes (n count k : Nat) : Touches (locatePushes n count k) := by
  induction count generalizing k with
  | zero => exact .pure _
  | succ c ih => exact (Touches.pushLocate _ _).bind fun _ => (ih _).bind fun _ => .pure _

theorem Touches.peek (w : Width) (k : Nat) : Touches (peek w k) :=
  (Touches.popLocate _ _).bind fun _ => (Touches.memRead _).bind fun _ => .pure _

theorem Touches.stackItem (n k : Nat) : Touches (stackItem n k) := (Touches.popLocate _ _).bind fun _ => .memRead _

theorem Touches.locateItems (n count k : Nat) : Touches (locateItems n count k) := by
  induction count generalizing k with
  | zero => exact .pure _
  | succ c ih => exact (Touches.popLocate _ _).bind fun _ => (ih _).bind fun _ => .pure _

theorem Touches.memReadAll (ls : List (List Dword)) : Touches (memReadAll ls) := by
  induction ls with
  | nil => exact .pure _
  | cons p ps ih => exact (Touches.memRead _).bind fun _ => ih.bind fun _ => .pure _

/-- Reading items of the stack only touches the state. -/
theorem Touches.stackItems (n count k : Nat) : Touches (stackItems n count k) :=
  (Touches.locateItems _ _ _).bind fun _ => .memReadAll _

theorem Touches.ioPermitted (port n : Nat) : Touches (ioPermitted port n) := by
  refine Touches.get.bind fun s => ?_
  dsimp only
  split
  · exact .pure _
  · split
    · exact .pure _
    · exact (Touches.require _ _).bind fun _ => (Touches.require _ _).bind fun _ => (Touches.sysRead16 _).bind fun _ =>
        (Touches.require _ _).bind fun _ => (Touches.sysRead16 _).bind fun _ => .require _ _

theorem Touches.locateEa (ea : EA) (k n : Nat) (write : Bool) : Touches (locateEa ea k n write) :=
  Touches.get.bind fun _ => .segLocate _ _ _ _

/-- Reading the two parts of a memory operand only touches the state. -/
theorem Touches.readParts (ea : EA) (n m : Nat) : Touches (readParts ea n m) :=
  (Touches.locateEa _ _ _ _).bind fun _ => (Touches.locateEa _ _ _ _).bind fun _ => (Touches.memRead _).bind fun _ =>
    (Touches.memRead _).bind fun _ => .pure _

theorem Touches.readFar (ea : EA) : Touches (readFar ea) :=
  Touches.get.bind fun _ => (Touches.readParts _ _ _).bind fun _ => .pure _

theorem Touches.locateMoffs (off : Dword) (n : Nat) (write : Bool) : Touches (locateMoffs off n write) :=
  Touches.get.bind fun _ => .segLocate _ _ _ _

/-- Finding an r/m operand only touches the state. -/
theorem Touches.locate (w : Width) (rm : Rm) (write : Bool) : Touches (locate w rm write) := by
  cases rm
  · exact .pure _
  · exact .map _ (.locateEa _ _ _ _)

theorem Touches.getPlace (w : Width) (p : Place) : Touches (getPlace w p) := by
  cases p
  · exact Touches.get.bind fun _ => .pure _
  · exact (Touches.memRead _).bind fun _ => .pure _

/-- Reading an r/m operand that is written next only touches the state. -/
theorem Touches.getPlaceToWrite (w : Width) (lock : Bool) (p : Place) : Touches (getPlaceToWrite w lock p) := by
  unfold Machine.getPlaceToWrite
  split
  · exact Touches.assertLock.bind fun _ => .getPlace _ _
  · exact (Touches.pure ()).bind fun _ => .getPlace _ _

/-- Reading an r/m operand only touches the state. -/
theorem Touches.readRm (w : Width) (rm : Rm) : Touches (readRm w rm) := (Touches.locate _ _ _).bind fun _ => .getPlace _ _

theorem Touches.locateSource (w : Width) : Touches (locateSource w) := Touches.get.bind fun _ => .segLocate _ _ _ _

theorem Touches.locateDest (w : Width) (write : Bool) : Touches (locateDest w write) :=
  Touches.get.bind fun _ => .segLocate _ _ _ _

end Sys2Proof.Machine
end

