-- ==== Sys2Proof/Laws/Effects.lean ====
section
/-! SUPPORT. What a completed instruction leaves: located bytes are distinct, written places read back, and the end of
an instruction gives `After`. -/

namespace Sys2Proof.Machine

variable {α β : Type}

theorem Touched.regs {s u : State} (h : Touched s u) : u.regs = s.regs := by rw [h.rest]
theorem Touched.flags {s u : State} (h : Touched s u) : u.flags = s.flags := by rw [h.rest]
theorem Touched.eip {s u : State} (h : Touched s u) : u.eip = s.eip := by rw [h.rest]
theorem Touched.segs {s u : State} (h : Touched s u) : u.segs = s.segs := by rw [h.rest]
theorem Touched.cpl {s u : State} (h : Touched s u) : u.cpl = s.cpl := by rw [h.rest]
theorem Touched.dr7 {s u : State} (h : Touched s u) : u.dr7 = s.dr7 := by rw [h.rest]
theorem Touched.len {s u : State} (h : Touched s u) : u.dec.len = s.dec.len := by rw [h.rest]
theorem Touched.nextEip {s u : State} (h : Touched s u) : u.nextEip = s.nextEip := by
  rw [State.nextEip, State.nextEip, h.eip, h.len]
theorem Touched.os32 {s u : State} (h : Touched s u) : u.os32 = s.os32 := by rw [h.rest]; rfl
theorem Touched.as32 {s u : State} (h : Touched s u) : u.as32 = s.as32 := by rw [h.rest]; rfl
theorem Touched.vWidth {s u : State} (h : Touched s u) : u.vWidth = s.vWidth := by rw [h.rest]; rfl
theorem Touched.stackPtr {s u : State} (h : Touched s u) : u.stackPtr = s.stackPtr := by rw [h.rest]; rfl
theorem Touched.stackSet {s u : State} (h : Touched s u) (v : Dword) : u.stackSet v = s.stackSet v := by
  rw [h.rest]; rfl
theorem Touched.stackWrap {s u : State} (h : Touched s u) (v : Dword) : u.stackWrap v = s.stackWrap v := by
  rw [h.rest]; rfl
theorem Touched.protMode {s u : State} (h : Touched s u) : u.protMode = s.protMode := by rw [h.rest]; rfl

/-- The data breakpoints matched are all that changes when paging is off. -/
theorem Touched.mem_off {s u : State} (h : Touched s u) (hc : s.closed = true) (hp : s.cr0.pg = false) :
    u.mem = s.mem := by
  rw [h.direct hc hp]

/-! Paging off. -/

theorem translate_off {s : State} (hp : s.cr0.pg = false) (lin : Dword) (write sys : Bool) :
    translate lin write sys s = .ok lin s := by
  unfold translate
  rw [M.get_bind_apply]
  simp [hp]

theorem linLocate_off {s : State} (hp : s.cr0.pg = false) (lin : Dword) (n : Nat) (write sys : Bool) :
    linLocate lin n write sys s = .ok (addrRun lin n) s := by
  unfold linLocate
  rw [M.get_bind_apply]
  simp [hp, M.bind_ok (translate_off hp lin write sys)]

theorem sysRead_off {s : State} (hc : s.closed = true) (hp : s.cr0.pg = false) (lin : Dword) (n : Nat) :
    sysRead lin n s = .ok (s.mem.readAt (addrRun lin n)) s := by
  unfold sysRead
  rw [M.bind_ok (linLocate_off hp lin n false true), memRead_closed hc]

theorem sysRead16_off {s : State} (hc : s.closed = true) (hp : s.cr0.pg = false) (lin : Dword) :
    sysRead16 lin s = .ok (BitVec.ofNat 16 (s.mem.readAt (addrRun lin 2))) s := by
  unfold sysRead16
  rw [M.bind_ok (sysRead_off hc hp lin 2)]
  rfl

/-! Located bytes. -/

/-- Translation keeps the offset in the page. -/
theorem translate_offset {lin p : Dword} {write sys : Bool} {s u : State} (h : translate lin write sys s = .ok p u) :
    p.extractLsb' 0 12 = lin.extractLsb' 0 12 := by
  have key : ∀ a : BitVec 20, (a ++ lin.extractLsb' 0 12 : Dword).extractLsb' 0 12 = lin.extractLsb' 0 12 := by
    intro a
    apply BitVec.eq_of_toNat_eq
    have := (lin.extractLsb' 0 12).isLt
    rw [BitVec.extractLsb'_toNat, BitVec.toNat_append, ← Nat.shiftLeft_add_eq_or_of_lt this, Nat.shiftLeft_eq]
    simp
  have walk : ∀ {w us : Bool} {v : State}, pageWalk lin w us v = .ok p u →
      p.extractLsb' 0 12 = lin.extractLsb' 0 12 := by
    intro w us v h
    unfold pageWalk at h
    rw [M.get_bind_apply] at h
    obtain ⟨_, _, -, h⟩ := M.bind_eq_ok h
    obtain ⟨_, _, -, h⟩ := M.bind_eq_ok h
    obtain ⟨_, _, -, h⟩ := M.bind_eq_ok h
    obtain ⟨_, _, -, h⟩ := M.bind_eq_ok h
    obtain ⟨_, _, -, h⟩ := M.bind_eq_ok h
    obtain ⟨_, _, -, h⟩ := M.bind_eq_ok h
    obtain ⟨_, _, -, h⟩ := M.bind_eq_ok h
    obtain ⟨_, _, -, h⟩ := M.bind_eq_ok h
    cases h
    exact key _
  unfold translate at h
  rw [M.get_bind_apply] at h
  split at h
  · cases h; rfl
  · revert h
    rcases tlbMatches s.tlb (pageOf lin) with _ | ⟨e, _ | ⟨e', es⟩⟩ <;> intro h
    · exact walk h
    · dsimp only at h
      split at h
      · obtain ⟨_, _, -, h⟩ := M.bind_eq_ok h
        cases h
        exact key _
      · exact walk h
    · cases h

/-- Bytes of two runs, the first up to the end of its page and the second from the start of one, differ. -/
theorem nodup_cross {p q : Dword} {n : Nat} (hn : n ≤ 4096) (hr : 4096 - (p.extractLsb' 0 12).toNat < n)
    (hq : q.extractLsb' 0 12 = 0) :
    (addrRun p (4096 - (p.extractLsb' 0 12).toNat) ++ addrRun q (n - (4096 - (p.extractLsb' 0 12).toNat))).Nodup := by
  rw [List.nodup_append]
  refine ⟨nodup_addrRun _ (by omega), nodup_addrRun _ (by omega), ?_⟩
  intro a ha b hb e
  obtain ⟨i, hi, rfl⟩ := mem_addrRun.1 ha
  obtain ⟨j, hj, rfl⟩ := mem_addrRun.1 hb
  have e' := congrArg BitVec.toNat e
  have hq' : q.toNat % 2 ^ 12 = 0 := by simpa using congrArg BitVec.toNat hq
  have := p.isLt
  have := q.isLt
  simp only [BitVec.toNat_add, BitVec.toNat_ofNat, BitVec.extractLsb'_toNat, Nat.shiftRight_zero] at *
  omega

/-- Located bytes are as many as asked for, and distinct. -/
theorem linLocate_bytes {lin : Dword} {n : Nat} {write sys : Bool} {s u : State} {ps : List Dword} (hn : n ≤ 4096)
    (h : linLocate lin n write sys s = .ok ps u) : ps.length = n ∧ ps.Nodup := by
  unfold linLocate at h
  rw [M.get_bind_apply] at h
  split at h
  · obtain ⟨p, _, -, h⟩ := M.bind_eq_ok h
    cases h
    exact ⟨length_addrRun _ _, nodup_addrRun _ (by omega)⟩
  · rename_i hc
    obtain ⟨p, _, hp, h⟩ := M.bind_eq_ok h
    obtain ⟨q, _, hq, h⟩ := M.bind_eq_ok h
    cases h
    have hp' := translate_offset hp
    have hq' := translate_offset hq
    rw [← hp'] at hc ⊢
    simp only [Bool.or_eq_true, Bool.not_eq_true', decide_eq_true_eq, not_or, not_le] at hc
    have hlt := (p.extractLsb' 0 12).isLt
    refine ⟨by simp only [List.length_append, length_addrRun]; omega, nodup_cross hn hc.2 (hq'.trans ?_)⟩
    apply BitVec.eq_of_toNat_eq
    rw [show (0 : BitVec 12).toNat = 0 from rfl]
    have hp'' := congrArg BitVec.toNat hp'
    have := lin.isLt
    simp only [BitVec.extractLsb'_toNat, BitVec.toNat_add, BitVec.toNat_ofNat, Nat.shiftRight_zero] at *
    omega

/-- The data breakpoints an access matches, remembered. -/
def State.recorded (s : State) (lin : Dword) (n : Nat) (write : Bool) : State :=
  { s with dec := { s.dec with hits := s.dec.hits ||| bits4 fun i => dataMatch s i lin n write } }

/-- A data access: its segment checks, then its pages. -/
theorem segLocate_apply (sr : Sreg) (off : Dword) (n : Nat) (write : Bool) (s : State) :
    segLocate sr off n write s =
      match segCheck (s.segs.get sr) (segFault sr) off n write with
      | some e => .error (.exn e) s
      | none => linLocate ((s.segs.get sr).base + off) n write false
          (s.recorded ((s.segs.get sr).base + off) n write) := by
  unfold segLocate
  rw [M.get_bind_apply]
  cases segCheck (s.segs.get sr) (segFault sr) off n write <;> rfl

/-- The bytes of a data access are as many as asked for, and distinct. -/
theorem segLocate_bytes {sr : Sreg} {off : Dword} {n : Nat} {write : Bool} {s u : State} {ps : List Dword}
    (hn : n ≤ 4096) (h : segLocate sr off n write s = .ok ps u) : ps.length = n ∧ ps.Nodup := by
  rw [segLocate_apply] at h
  split at h
  · cases h
  · exact linLocate_bytes hn h

theorem bytes_le (w : Width) : w.bytes ≤ 4096 := by cases w <;> decide

/-- The bytes of a place: none, or as many as the operand has, and distinct. -/
theorem locate_bytes {w : Width} {rm : Rm} {write : Bool} {s u : State} {p : Place}
    (h : locate w rm write s = .ok p u) :
    p.bytes.Nodup ∧ ∀ ps, p = .mem ps → ps.length = w.bytes := by
  cases rm with
  | reg r => cases h; exact ⟨List.nodup_nil, fun _ h => by cases h⟩
  | mem ea =>
    simp only [locate, M.map_apply] at h
    split at h
    · cases h
      rename_i hl
      unfold locateEa at hl
      rw [M.get_bind_apply] at hl
      have k := segLocate_bytes (bytes_le w) hl
      exact ⟨k.2, fun _ e => by cases e; exact k.1⟩
    · cases h

/-! Registers and places read back. -/

@[simp] theorem Regs.get_set_same (g : Regs) (r : Reg) (v : Dword) : (g.set r v).get r = v := by cases r <;> rfl

@[simp] theorem Regs.get_set_other (g : Regs) {r q : Reg} (v : Dword) (h : q ≠ r) : (g.set r v).get q = g.get q := by
  cases r <;> cases q <;> first | rfl | exact absurd rfl h

theorem toNat_append_eq {n m : Nat} (x : BitVec n) (y : BitVec m) : (x ++ y).toNat = 2 ^ m * x.toNat + y.toNat := by
  rw [BitVec.toNat_append, ← Nat.shiftLeft_add_eq_or_of_lt y.isLt, Nat.shiftLeft_eq, Nat.mul_comm]

theorem setLow16_low (x : Dword) (v : Word) : (setLow16 x v).extractLsb' 0 16 = v := by
  apply BitVec.eq_of_toNat_eq
  have := v.isLt
  rw [setLow16, BitVec.extractLsb'_toNat, toNat_append_eq]
  simp only [Nat.shiftRight_zero]
  omega

theorem setLow8_low (x : Dword) (v : Byte) : (setLow8 x v).extractLsb' 0 8 = v := by
  apply BitVec.eq_of_toNat_eq
  have := v.isLt
  rw [setLow8, BitVec.extractLsb'_toNat, toNat_append_eq]
  simp only [Nat.shiftRight_zero]
  omega

theorem setHigh8_high (x : Dword) (v : Byte) : (setHigh8 x v).extractLsb' 8 8 = v := by
  apply BitVec.eq_of_toNat_eq
  have := v.isLt
  have := (x.extractLsb' 0 8).isLt
  rw [setHigh8, BitVec.extractLsb'_toNat, toNat_append_eq, toNat_append_eq, Nat.shiftRight_eq_div_pow]
  omega

/-- A register operand just written reads back. -/
@[simp] theorem Regs.read_write_same (g : Regs) (w : Width) (r : Reg) (v : BitVec w.bits) :
    (g.write w r v).read w r = v := by
  cases w with
  | w8 =>
    rcases hb : byteHome r with ⟨q, _ | _⟩
    · simp only [Regs.read, Regs.write, hb, Bool.false_eq_true, if_false, Regs.get_set_same]
      exact setLow8_low _ _
    · simp only [Regs.read, Regs.write, hb, if_true, Regs.get_set_same]
      exact setHigh8_high _ _
  | w16 =>
    simp only [Regs.read, Regs.write, Regs.get_set_same]
    exact setLow16_low _ _
  | w32 => exact Regs.get_set_same g r v

/-- Writing a place changes registers, memory and the prefetch queue only. -/
theorem State.withPlace_eq (s : State) (w : Width) (p : Place) (v : BitVec w.bits) :
    s.withPlace w p v =
      { s with regs := s.regs.put w p v, mem := (s.withPlace w p v).mem, prefetch := (s.withPlace w p v).prefetch } := by
  cases p with
  | reg r => rfl
  | mem ps =>
    rw [withPlace, putBytes_eq]
    rfl

/-- Writing a place leaves every byte outside it alone. -/
theorem State.withPlace_other (s : State) (w : Width) (p : Place) (v : BitVec w.bits) {a : Dword} (h : a ∉ p.bytes) :
    (s.withPlace w p v).mem.read a.toNat = s.mem.read a.toNat := by
  cases p with
  | reg r => rfl
  | mem ps =>
    rw [withPlace, putBytes_mem]
    exact Memory.read_writeAt_other ps _ h

theorem two_pow_bits (w : Width) : 2 ^ w.bits = 256 ^ w.bytes := by cases w <;> rfl

/-- Reading a place in a world of RAM alone. -/
theorem getPlace_ram {s : State} (h : s.masters = []) (k : s.map = []) (w : Width) (p : Place) :
    getPlace w p s = .ok (s.placeValue w p) s := by
  cases p with
  | reg r => rfl
  | mem ps =>
    rw [getPlace, M.bind_ok (memRead_ram h k ps)]
    rfl

/-- Reading a place in the closed world. -/
theorem getPlace_closed {s : State} (h : s.closed = true) (w : Width) (p : Place) :
    getPlace w p s = .ok (s.placeValue w p) s := getPlace_ram (s.closed_masters h) (s.closed_map h) w p

theorem assertLock_none {s : State} (h : s.masters = []) :
    assertLock s = .ok () { s with dec := { s.dec with held := true } } := by
  unfold assertLock
  rw [M.bind_ok (busGap_none h)]
  rfl

/-- Reading a place that is written next, in the closed world: LOCK# is all that may change. -/
theorem getPlaceToWrite_closed {s : State} (h : s.closed = true) (w : Width) (lock : Bool) (p : Place) :
    getPlaceToWrite w lock p s =
      .ok (s.placeValue w p) { s with dec := { s.dec with held := s.dec.held || lock } } := by
  have hm := s.closed_masters h
  have hk := s.closed_map h
  cases lock with
  | false =>
    rw [getPlaceToWrite, Bool.or_false]
    exact getPlace_closed h w p
  | true =>
    rw [getPlaceToWrite, if_pos rfl, M.bind_ok (assertLock_none hm), Bool.or_true]
    dsimp only
    rw [getPlace_ram (by exact hm) (by exact hk)]
    cases p <;> rfl

/-- Writing a place in the closed world. -/
theorem putPlace_closed {s : State} (h : s.closed = true) (w : Width) (p : Place) (v : BitVec w.bits) :
    putPlace w p v s = .ok () (s.withPlace w p v) := by
  cases p with
  | reg r => rfl
  | mem ps => exact memWrite_closed h ps _

/-- A place just written reads back. -/
theorem State.placeValue_withPlace (s : State) (w : Width) (p : Place) (v : BitVec w.bits) (hm : s.mem.wf = true)
    (hd : p.bytes.Nodup) (hl : ∀ ps, p = .mem ps → ps.length = w.bytes) :
    (s.withPlace w p v).placeValue w p = v := by
  cases p with
  | reg r => exact Regs.read_write_same _ _ _ _
  | mem ps =>
    have hv : v.toNat < 256 ^ ps.length := by rw [hl ps rfl, ← two_pow_bits]; exact v.isLt
    have e : (s.mem.writeAt ps v.toNat).readAt ps = v.toNat := Memory.readAt_writeAt_same hm hd hv
    rw [withPlace, placeValue, putBytes_mem, e, BitVec.ofNat_toNat, BitVec.setWidth_eq]

/-! The end of an instruction. -/

/-- The data breakpoints noted, as a change of DR6, of the pending trap and of the counter of free values. -/
theorem State.noteHits_eq (s : State) :
    s.noteHits = { s with dr6 := s.noteHits.dr6, pend := s.noteHits.pend, free := s.noteHits.free } := by
  unfold noteHits; split <;> rfl

theorem State.noteHits_quiet {s : State} (h : bpEnabled s.dr7 = 0) : s.noteHits = s := by
  unfold noteHits; rw [h, if_pos (by simp)]

theorem State.noteHits_pend (s : State) : s.noteHits.pend.bs = s.pend.bs ∧ s.noteHits.pend.bt = s.pend.bt := by
  unfold noteHits; split <;> exact ⟨rfl, rfl⟩

/-- What an instruction makes pending is enabled (60_exceptions.md R683). -/
theorem State.noteHits_data (s : State) :
    s.noteHits.pend.data = s.pend.data ||| (s.dec.hits &&& bpEnabled s.dr7) := by
  unfold noteHits
  split
  case isTrue h => rw [h]; exact BitVec.or_zero.symm
  case isFalse => rfl

/-- Deciding the held data breakpoints changes only what is pending of them and the counter of free values. -/
theorem State.decideHeld_eq (s : State) :
    s.decideHeld = { s with pend := { s.pend with data := s.decideHeld.pend.data, exact := s.decideHeld.pend.exact },
                            free := s.decideHeld.free } := by
  unfold decideHeld; split <;> rfl

/-- The breakpoints due after the decision: those that had to be reported are among them, and none that was not held. -/
theorem State.decideHeld_now (s : State) (i : Nat) :
    (s.pend.data.getLsbD i = true → s.pend.exact.getLsbD i = true →
      s.decideHeld.pend.data.getLsbD i = true ∧ s.decideHeld.pend.exact.getLsbD i = true) ∧
    (s.decideHeld.pend.data.getLsbD i = true → s.pend.data.getLsbD i = true) := by
  unfold decideHeld
  split
  · exact ⟨And.intro, id⟩
  · simp only [BitVec.getLsbD_or, BitVec.getLsbD_and]
    cases s.pend.data.getLsbD i <;> cases s.pend.exact.getLsbD i <;> simp

/-- With none held there is nothing to decide. -/
theorem State.decideHeld_none {s : State} (h : s.pend.data = 0) : s.decideHeld = s := by
  simp [decideHeld, h]

/-- With none held there is nothing to report. -/
theorem State.dueData_none {s : State} (h : s.pend.data = 0) : s.dueData = (0, s) := by
  simp [dueData, decideHeld_none h, takeExact, h]

/-- An instruction that touched the state and then wrote registers, flags, EIP and some bytes ends as `After` says. -/
theorem After.intro {s u v : State} (hm : s.closed = true) (h : Touched s u) (d : Done) (hd : d ≠ .silent)
    {stored : List Dword}
    (hv : v = { u with regs := v.regs, flags := v.flags, eip := v.eip, mem := v.mem, prefetch := v.prefetch,
                       free := v.free, dec := v.dec })
    (hb : ∀ a : Dword, a ∉ stored → v.mem.read a.toNat = u.mem.read a.toNat) :
    After s (s.finish v d) v.regs { v.flags with rf := if d = .plain then false else v.flags.rf } v.eip stored := by
  exact {
    regs := State.finish_regs ..
    flags := State.finish_flags ..
    eip := State.finish_eip ..
    idle := State.finish_dec ..
    segs := (State.finish_segs s v d).trans (by rw [hv, h.rest])
    cpl := (State.finish_cpl s v d).trans (by rw [hv, h.rest])
    cr0 := (State.finish_cr0 s v d).trans (by rw [hv, h.rest])
    cr2 := (State.finish_cr2 s v d).trans (by rw [hv, h.rest])
    cr3 := (State.finish_cr3 s v d).trans (by rw [hv, h.rest])
    gdtr := (State.finish_gdtr s v d).trans (by rw [hv, h.rest])
    idtr := (State.finish_idtr s v d).trans (by rw [hv, h.rest])
    ldtr := (State.finish_ldtr s v d).trans (by rw [hv, h.rest])
    tr := (State.finish_tr s v d).trans (by rw [hv, h.rest])
    dr := (State.finish_dr s v d).trans (by rw [hv, h.rest])
    dr7 := (State.finish_dr7 s v d).trans (by rw [hv, h.rest])
    tr6 := (State.finish_tr6 s v d).trans (by rw [hv, h.rest])
    tr7 := (State.finish_tr7 s v d).trans (by rw [hv, h.rest])
    inhibit := (State.finish_inhibit s v d).trans (by rw [hv, h.rest])
    run := (State.finish_run s v d).trans (by rw [hv, h.rest])
    pins := (State.finish_pins s v d).trans (by rw [hv, h.rest])
    inputs := (State.finish_inputs s v d).trans (by rw [hv, h.rest])
    masters := (State.finish_masters s v d).trans (by rw [hv, s.closed_masters hm]; exact (h.closed hm).1)
    map := (State.finish_map s v d).trans (by rw [hv, h.rest])
    ports := (State.finish_ports s v d).trans (by rw [hv, h.rest])
    ioLog := (State.finish_ioLog s v d).trans (by rw [hv]; exact (h.closed hm).2)
    protocol := (State.finish_protocol387 s v d).trans (by rw [hv, h.rest])
    nmi := ⟨(State.finish_nmiPending s v d).trans (by rw [hv, h.rest]),
      (State.finish_nmiInService s v d).trans (by rw [hv, h.rest])⟩
    bytes := fun a ha => by
      rw [State.finish_mem, hb a ha]
      exact h.bytes hm a
    dr6 := fun hq => by
      have : bpEnabled v.dr7 = 0 := by rw [hv, h.rest]; exact hq
      simp only [State.finish, State.noteHits_quiet this]
      rw [hv, h.rest]
    tlb := fun hq => by
      rw [State.finish_tlb, hv, h.direct hm hq]
    trap := by
      simp only [State.finish, (v.noteHits_pend).1, (v.noteHits_pend).2, hd, ne_eq, not_false_eq_true, decide_true,
        Bool.and_true]
      rw [hv, h.rest]
      exact ⟨rfl, rfl⟩ }

end Sys2Proof.Machine
end

