-- ==== Sys2Proof/Laws/Complete.lean ====
section
/-! SUPPORT. From the run of a meaning to what the claims say of it: `Sets`, `Writes`, `Goes` and `Leaves`. -/

namespace Sys2Proof.Machine

/-- A completed plain instruction that touched the state and then wrote registers, flags, EIP and some bytes. -/
theorem After.plain {s u v : State} {stored : List Dword} (hm : s.closed = true) (h : Touched s u)
    (hv : v = { u with regs := v.regs, flags := v.flags, eip := v.eip, mem := v.mem, prefetch := v.prefetch,
                       free := v.free, dec := { u.dec with held := v.dec.held } })
    (hb : ∀ a : Dword, a ∉ stored → v.mem.read a.toNat = u.mem.read a.toNat) :
    After s (s.finish v .plain) v.regs v.flags.settled v.eip stored :=
  After.intro hm h .plain (by decide) (by rw [hv]) hb

/-- A meaning that ends with EIP written elsewhere. -/
theorem Goes.intro {s u v : State} {i : Instr} {body : M Done} (he : exec i s = runInstr body s)
    (hm : s.closed = true) (h : Touched s u) (hb : body s = .ok .plain v)
    (hv : v = { u with regs := v.regs, flags := v.flags, eip := v.eip, prefetch := v.prefetch, free := v.free,
                       dec := { u.dec with held := v.dec.held } }) :
    Goes s i v.regs v.flags v.eip :=
  ⟨_, by rw [he, runInstr_ok hb],
    After.plain hm h (by rw [hv]) fun a _ => by rw [hv]⟩

/-- A simple meaning that writes registers and flags. -/
theorem Sets.intro {s u v : State} {i : Instr} {body : M Unit} (he : exec i s = runSimple body s)
    (hm : s.closed = true) (h : Touched s u) (hb : body s = .ok () v)
    (hv : v = { u with regs := v.regs, flags := v.flags, free := v.free, dec := { u.dec with held := v.dec.held } }) : Sets s i v.regs v.flags := by
  have e : v.nextEip = s.nextEip := by rw [hv]; exact h.nextEip
  rw [Sets, ← e]
  exact ⟨_, by rw [he, runSimple_ok hb],
    After.plain (v := { v with eip := v.nextEip }) hm h (by rw [hv]) fun a _ => by rw [hv]⟩

/-- A simple meaning that writes registers and flags, and then a place whose bytes are distinct. -/
theorem WritesOver.intro {s u x : State} {i : Instr} {body : M Unit} {w : Width} {p : Place} {v : BitVec w.bits}
    (he : exec i s = runSimple body s) (hm : s.closed = true) (h : Touched s u)
    (hd : p.bytes.Nodup) (hl : ∀ ps, p = .mem ps → ps.length = w.bytes)
    (hx : x = { u with regs := x.regs, flags := x.flags, free := x.free, dec := { u.dec with held := x.dec.held } })
    (hb : body s = .ok () (x.withPlace w p v)) : WritesOver s i x.regs w p v x.flags := by
  have e := x.withPlace_eq w p v
  have en : (x.withPlace w p v).nextEip = s.nextEip := by rw [e, hx]; exact h.nextEip
  have er : x.regs.put w p v = (x.withPlace w p v).regs := by rw [e]
  have ef : x.flags = (x.withPlace w p v).flags := by rw [e]
  rw [WritesOver, ← en, er, ef]
  refine ⟨_, by rw [he, runSimple_ok hb], ?_, ?_⟩
  · exact After.plain (v := { x.withPlace w p v with eip := (x.withPlace w p v).nextEip }) hm h
      (by rw [e, hx]) fun a ha => by dsimp only; rw [State.withPlace_other _ _ _ _ ha, hx]
  · have hw : x.mem.wf = true := by rw [hx]; exact h.wf (s.closed_wf hm)
    have := x.placeValue_withPlace w p v hw hd hl
    cases p with
    | reg r => rw [State.placeValue, State.finish_regs]; exact this
    | mem ps => rw [State.placeValue, State.finish_mem]; exact this

/-- A simple meaning that writes flags and then a located place. -/
theorem Writes.intro {s u x : State} {i : Instr} {body : M Unit} {w : Width} {rm : Rm} {wr : Bool} {p : Place}
    {v : BitVec w.bits} (he : exec i s = runSimple body s) (hm : s.closed = true) (hl : locate w rm wr s = .ok p u)
    (hx : x = { u with flags := x.flags, free := x.free, dec := { u.dec with held := x.dec.held } }) (hb : body s = .ok () (x.withPlace w p v)) :
    Writes s i w p v x.flags := by
  have h : Touched s u := (Touches.locate w rm wr s).1 _ _ hl
  have hn := locate_bytes hl
  have er : s.regs = x.regs := by rw [hx]; exact h.regs.symm
  rw [Writes, er]
  exact WritesOver.intro he hm h hn.1 hn.2 (by rw [hx]) hb

/-! More than registers and flags. -/

/-- A touched state, field by field. -/
theorem Touched.form {s u : State} (h : Touched s u) (c : s.closed = true) : ∃ m p l n b k,
    u = { s with mem := m, prefetch := p, tlb := l, free := n, dec := { s.dec with hits := b, held := k } } :=
  ⟨u.mem, u.prefetch, u.tlb, u.free, u.dec.hits, u.dec.held, by
    have e : u.masters = s.masters := (h.closed c).1.trans (s.closed_masters c).symm
    have f := (h.closed c).2
    exact h.rest.trans (by rw [e, f])⟩

/-- The same accesses over a state with other contents in what no access changes. -/
theorem Touched.over {s u : State} (h : Touched s u) (c : s.closed = true) (segs : Segs) (cpl : BitVec 2) (cr2 : Dword)
    (gdtr idtr : TableReg) (ldtr : LdtReg) (tr : TaskReg) (inhibit nmi : Bool) (io : List IoCycle) :
    Touched
      { s with segs := segs, cpl := cpl, cr2 := cr2, gdtr := gdtr, idtr := idtr, ldtr := ldtr, tr := tr,
               inhibit := inhibit, nmiInService := nmi, ioLog := io }
      { u with segs := segs, cpl := cpl, cr2 := cr2, gdtr := gdtr, idtr := idtr, ldtr := ldtr, tr := tr,
               inhibit := inhibit, nmiInService := nmi, ioLog := io } where
  rest := by rw [h.rest]
  wf := h.wf
  tlb := h.tlb
  closed _ := ⟨(h.closed c).1, rfl⟩
  bytes _ := h.bytes c
  direct _ hp := congrArg (fun x : State =>
    { x with segs := segs, cpl := cpl, cr2 := cr2, gdtr := gdtr, idtr := idtr, ldtr := ldtr, tr := tr,
             inhibit := inhibit, nmiInService := nmi, ioLog := io }) (h.direct c hp)

/-- A meaning that ends in `v`, which is `u` but for registers, flags, EIP and stored bytes, where `u` is what the
accesses made of `s'`. -/
theorem Leaves.intro {s s' u v : State} {i : Instr} {body : M Done} {d : Done} {g : Regs} {f : Flags} {e : Dword}
    {ps : List Dword} {x : Nat} (he : exec i s = runInstr body s) (hb : body s = .ok d v) (hd : d ≠ .silent)
    (ht : s.flags.tf = s'.flags.tf) (hm : s'.closed = true) (h : Touched s' u)
    (hv : v = { u with regs := v.regs, flags := v.flags, eip := v.eip, mem := v.mem, prefetch := v.prefetch,
                       free := v.free, dec := { u.dec with held := v.dec.held } })
    (ho : ∀ a : Dword, a ∉ ps → v.mem.read a.toNat = u.mem.read a.toNat) (hx : v.mem.readAt ps = x)
    (hg : v.regs = g) (hf : ({ v.flags with rf := if d = .plain then false else v.flags.rf } : Flags) = f)
    (hi : v.eip = e) : Leaves s i s' g f e ps x := by
  refine ⟨s.finish v d, by rw [he, runInstr_ok hb], ?_, by rw [State.finish_mem]; exact hx⟩
  rw [show s.finish v d = s'.finish v d by simp only [State.finish, ht], ← hg, ← hf, ← hi]
  exact After.intro hm h d hd (by rw [hv]) ho

/-- The same for an instruction that stores nothing. -/
theorem Leaves.intro_none {s s' u v : State} {i : Instr} {body : M Done} {d : Done} {g : Regs} {f : Flags} {e : Dword}
    (he : exec i s = runInstr body s) (hb : body s = .ok d v) (hd : d ≠ .silent)
    (ht : s.flags.tf = s'.flags.tf) (hm : s'.closed = true) (h : Touched s' u)
    (hv : v = { u with regs := v.regs, flags := v.flags, eip := v.eip, prefetch := v.prefetch, free := v.free,
                       dec := { u.dec with held := v.dec.held } })
    (hg : v.regs = g) (hf : ({ v.flags with rf := if d = .plain then false else v.flags.rf } : Flags) = f)
    (hi : v.eip = e) : Leaves s i s' g f e [] 0 :=
  .intro he hb hd ht hm h (by rw [hv]) (fun a _ => by rw [hv]) rfl hg hf hi

/-- A store to located bytes. -/
theorem putBytes_stored {u : State} {ps : List Dword} {x : Nat} (hm : u.mem.wf = true) (hd : ps.Nodup)
    (hx : x < 256 ^ ps.length) :
    (u.putBytes ps x).mem.readAt ps = x ∧
      ∀ a : Dword, a ∉ ps → (u.putBytes ps x).mem.read a.toNat = u.mem.read a.toNat := by
  rw [State.putBytes_mem]
  exact ⟨Memory.readAt_writeAt_same hm hd hx, fun a ha => Memory.read_writeAt_other ps _ ha⟩

/-- `Sets`, with what it leaves named. -/
theorem Sets.intro_eq {s u v : State} {i : Instr} {g : Regs} {f : Flags} {body : M Unit}
    (he : exec i s = runSimple body s) (hm : s.closed = true) (h : Touched s u) (hb : body s = .ok () v)
    (hg : v.regs = g) (hf : v.flags = f) (hv : v = { u with regs := v.regs, flags := v.flags, free := v.free, dec := { u.dec with held := v.dec.held } }) :
    Sets s i g f := hg ▸ hf ▸ Sets.intro he hm h hb hv

/-- `Writes`, with what it leaves named. -/
theorem Writes.intro_eq {s u x : State} {i : Instr} {body : M Unit} {w : Width} {rm : Rm} {wr : Bool} {p : Place}
    {v : BitVec w.bits} {f : Flags} (he : exec i s = runSimple body s) (hm : s.closed = true)
    (hl : locate w rm wr s = .ok p u) (hb : body s = .ok () (x.withPlace w p v)) (hf : x.flags = f)
    (hx : x = { u with flags := x.flags, free := x.free, dec := { u.dec with held := x.dec.held } }) : Writes s i w p v f := hf ▸ Writes.intro he hm hl hx hb

/-- `Leaves` for a simple meaning. -/
theorem Leaves.simple {s s' u v : State} {i : Instr} {body : M Unit} {g : Regs} {f : Flags} {ps : List Dword} {x : Nat}
    (he : exec i s = runSimple body s) (hb : body s = .ok () v) (ht : s.flags.tf = s'.flags.tf)
    (hm : s'.closed = true) (h : Touched s' u)
    (hv : v = { u with regs := v.regs, flags := v.flags, mem := v.mem, prefetch := v.prefetch, free := v.free,
                       dec := { u.dec with held := v.dec.held } })
    (ho : ∀ a : Dword, a ∉ ps → v.mem.read a.toNat = u.mem.read a.toNat) (hx : v.mem.readAt ps = x)
    (hg : v.regs = g) (hf : v.flags.settled = f) (hi : v.nextEip = s.nextEip) :
    Leaves s i s' g f s.nextEip ps x :=
  Leaves.intro (v := { v with eip := v.nextEip }) (d := .plain) he (by rw [M.bind_ok hb]; rfl) (by decide) ht hm h
    (by rw [hv]) ho hx hg hf hi

theorem SetsIn.of_leaves {s s' : State} {i : Instr} {g : Regs} {f : Flags}
    (h : Leaves s i s' g f.settled s.nextEip [] 0) : SetsIn s i s' g f :=
  let ⟨t, a, b, _⟩ := h
  ⟨t, a, b⟩

theorem toNat_lt_pow (w : Width) (x : BitVec w.bits) : x.toNat < 256 ^ w.bytes := two_pow_bits w ▸ x.isLt

theorem readRm_ok {s u : State} {w : Width} {rm : Rm} {p : Place} (c : s.closed = true)
    (hl : locate w rm false s = .ok p u) : readRm w rm s = .ok (u.placeValue w p) u := by
  unfold readRm
  rw [M.bind_ok hl, getPlace_closed (((Touches.locate w rm false s).1 _ _ hl).stays c)]

theorem writeRm_ok {s u : State} {w : Width} {rm : Rm} {p : Place} (c : s.closed = true)
    (hl : locate w rm true s = .ok p u) (v : BitVec w.bits) : writeRm w rm v s = .ok () (u.withPlace w p v) := by
  unfold writeRm
  rw [M.bind_ok hl, putPlace_closed (((Touches.locate w rm true s).1 _ _ hl).stays c)]

end Sys2Proof.Machine
end

