-- ==== Sys2Proof/Laws/Ports.lean ====
section
/-! SUPPORT. Port accesses: what IoRead and IoWrite show the devices when no other master is there. -/

namespace Sys2Proof.Machine

/-- The record of a cycle that devices see. -/
def cycleRecord (write : Bool) (xs : List Host.Cell) : List IoCycle := if xs = [] then [] else [.port write xs]

/-- The records of the cycles of a port access, latest first. -/
def State.cycleLog (s : State) (write : Bool) : List (List Dword) → Nat → List IoCycle
  | [], _ => []
  | c :: cs, v => cycleRecord write (s.portBytes c v) ++ s.cycleLog write cs (v / 256 ^ c.length)

/-- The state with more cycles recorded. -/
def State.record (s : State) (l : List IoCycle) : State := { s with ioLog := l ++ s.ioLog }

@[simp] theorem State.record_record (s : State) (k l : List IoCycle) : (s.record k).record l = s.record (l ++ k) := by
  simp [record]

/-- The ports answered depend on the I/O map alone. -/
theorem State.portBytes_congr {s t : State} (h : s.ports = t.ports) (ps : List Dword) (v : Nat) :
    s.portBytes ps v = t.portBytes ps v := by
  have ha : s.portAnswers = t.portAnswers := by funext p; rw [portAnswers, portAnswers, h]
  induction ps generalizing v with
  | nil => rfl
  | cons p ps ih => rw [portBytes, portBytes, ha, ih]

@[simp] theorem State.portBytes_record (s : State) (l : List IoCycle) (ps : List Dword) (v : Nat) :
    (s.record l).portBytes ps v = s.portBytes ps v :=
  portBytes_congr (s := s.record l) (t := s) rfl ps v

@[simp] theorem State.portBytes_free (s : State) (n : Nat) (ps : List Dword) (v : Nat) :
    ({ s with free := n } : State).portBytes ps v = s.portBytes ps v :=
  portBytes_congr (s := { s with free := n }) (t := s) rfl ps v

theorem logPorts_record (write : Bool) (ps : List Dword) (v : Nat) (s : State) :
    logPorts write ps v s = .ok () (s.record (cycleRecord write (s.portBytes ps v))) := by
  rw [logPorts_apply, cycleRecord, State.record]
  split <;> rfl

/-- The bytes of higher ports do not matter. -/
theorem State.portBytes_high (s : State) (ps : List Dword) (a b : Nat) :
    s.portBytes ps (a + 256 ^ ps.length * b) = s.portBytes ps a := by
  induction ps generalizing a b with
  | nil => rfl
  | cons p ps ih =>
    have e : a + 256 ^ (p :: ps).length * b = a + 256 * (256 ^ ps.length * b) := by rw [List.length_cons, pow_succ]; ring
    have d : (a + 256 * (256 ^ ps.length * b)) / 256 = a / 256 + 256 ^ ps.length * b := by omega
    have m : BitVec.ofNat 8 (a + 256 * (256 ^ ps.length * b)) = BitVec.ofNat 8 a := by
      apply BitVec.eq_of_toNat_eq
      simp only [BitVec.toNat_ofNat]
      omega
    rw [portBytes, portBytes, e, d, m, ih]

theorem portWriteCycle_record {s : State} (h : s.masters = []) (ps : List Dword) (v : Nat) :
    portWriteCycle ps v s = .ok () (s.record (cycleRecord true (s.portBytes ps v))) := by
  unfold portWriteCycle
  rw [M.bind_ok (busGap_none h), logPorts_record]

theorem writePorts_record {s : State} (h : s.masters = []) (cs : List (List Dword)) (v : Nat) :
    writeCycles portWriteCycle cs v s = .ok () (s.record (s.cycleLog true cs v)) := by
  induction cs generalizing v with
  | nil => rfl
  | cons c cs ih =>
    unfold writeCycles
    rw [M.bind_ok (ih _), portWriteCycle_record (by exact h), State.record_record, State.cycleLog,
      State.portBytes_record]

theorem portReadCycle_record {s : State} (h : s.masters = []) (ps : List Dword) : ∃ x < 256 ^ ps.length,
    portReadCycle ps s =
      .ok x ({ s with free := s.free + 1 }.record (cycleRecord false (s.portBytes ps x))) := by
  refine ⟨((Config.freeValue s.free).setWidth 32).toNat % 256 ^ ps.length, Nat.mod_lt _ (by positivity), ?_⟩
  unfold portReadCycle
  rw [M.bind_ok (busGap_none h), draw_bind_apply, M.bind_ok (logPorts_record ..), State.portBytes_free]
  rfl

theorem readPorts_record {s : State} (h : s.masters = []) (cs : List (List Dword)) : ∃ x < 256 ^ cs.flatten.length,
    ∃ n, readCycles portReadCycle cs s = .ok x ({ s with free := n }.record (s.cycleLog false cs x)) := by
  induction cs with
  | nil => exact ⟨0, by simp, s.free, rfl⟩
  | cons c cs ih =>
    obtain ⟨high, hh, n, e⟩ := ih
    obtain ⟨low, hl, f⟩ :=
      portReadCycle_record (s := { s with free := n }.record (s.cycleLog false cs high)) (by exact h) c
    have hd : (low + 256 ^ c.length * high) / 256 ^ c.length = high := by
      rw [Nat.add_mul_div_left _ _ (by positivity), Nat.div_eq_of_lt hl, Nat.zero_add]
    refine ⟨low + 256 ^ c.length * high, ?_, n + 1, ?_⟩
    · rw [List.flatten_cons, List.length_append, pow_add]
      calc low + 256 ^ c.length * high < 256 ^ c.length * (high + 1) := by rw [Nat.mul_add]; omega
        _ ≤ _ := Nat.mul_le_mul_left _ hh
    · unfold readCycles
      rw [M.bind_ok e, M.bind_ok f, State.cycleLog, hd, State.portBytes_high, State.portBytes_record,
        State.portBytes_free]
      simp [State.record]

/-! By the table of R116. -/

theorem busWord_start (n : Nat) : (BitVec.ofNat 32 n).extractLsb' 0 2 = 0 ↔ n % 4 = 0 := by
  rw [← BitVec.toNat_inj, BitVec.extractLsb'_toNat, BitVec.toNat_ofNat, Nat.shiftRight_zero,
    show (0 : BitVec 2).toNat = 0 from rfl]
  omega

theorem ofNat32_succ (n : Nat) : BitVec.ofNat 32 n + 1 = BitVec.ofNat 32 (n + 1) := by
  apply BitVec.eq_of_toNat_eq
  simp

/-- The `m` ports from the `j`-th after `port` on. -/
def portRun (port j m : Nat) : List Dword := (List.range' j m).map fun k => BitVec.ofNat 32 (port + k)

@[simp] theorem length_portRun (port j m : Nat) : (portRun port j m).length = m := by simp [portRun]

/-- The cycles of a port access: cut where a doubleword of ports ends. -/
theorem portCycles_eq (port : Nat) (w : Width) : portCycles port w.bytes =
    if w.bytes ≤ 4 - port % 4 then [portRun port 0 w.bytes]
    else [portRun port 0 (4 - port % 4), portRun port (4 - port % 4) (w.bytes - (4 - port % 4))] := by
  have hm : port % 4 = 0 ∨ port % 4 = 1 ∨ port % 4 = 2 ∨ port % 4 = 3 := by omega
  have e (k : Nat) : ((port + k) % 4 = 0) = ((port % 4 + k) % 4 = 0) := by rw [Nat.mod_add_mod]
  rcases hm with h | h | h | h <;> cases w <;>
    simp only [portCycles, addrRun, busCycles, ofNat32_succ, busWord_start, e, h, Width.bytes, portRun, Nat.add_assoc,
      List.range', List.map, Nat.reduceAdd, Nat.reduceMod, Nat.reduceSub, Nat.reduceLeDiff, reduceIte, Nat.add_zero,
      Nat.reduceEqDiff]

/-- What devices see of a run of ports. -/
theorem State.portBytes_run (s : State) (port v : Nat) {j m : Nat} (h : port + j + m ≤ 2 ^ 32) :
    s.portBytes (portRun port j m) (v / 256 ^ j) =
      ((List.range' j m).filter fun k => s.portAnswers (BitVec.ofNat 32 (port + k))).map
        fun k => (port + k, BitVec.ofNat 8 (v / 256 ^ k)) := by
  induction m generalizing j with
  | zero => rfl
  | succ m ih =>
    have hk : (BitVec.ofNat 32 (port + j)).toNat = port + j := by rw [BitVec.toNat_ofNat, Nat.mod_eq_of_lt (by omega)]
    have := ih (j := j + 1) (by omega)
    rw [pow_succ, ← Nat.div_div_eq_div_mul] at this
    rw [portRun, List.range'_succ, List.map_cons, portBytes, List.filter_cons, hk, ← portRun, this]
    split <;> rfl

/-- The cycles of a port access are those of the table in 20_memory.md R116. -/
theorem State.cycleLog_portCycles (s : State) (write : Bool) {port : Nat} (hp : port < 65536) (w : Width) (v : Nat) :
    s.cycleLog write (portCycles port w.bytes) v = s.portLog write port w.bytes v := by
  have hw : w.bytes ≤ 4 := by cases w <;> decide
  have run {j m : Nat} (h : j + m ≤ 4) := s.portBytes_run port v (j := j) (m := m) (by omega)
  have zero (m : Nat) (h : m ≤ 4) := run (j := 0) (m := m) (by omega)
  simp only [pow_zero, Nat.div_one] at zero
  have record (f : Nat → Bool) (g : Nat → Host.Cell) (l : List Nat) : cycleRecord write ((l.filter f).map g) =
      if l.filter f = [] then [] else [.port write ((l.filter f).map g)] := by
    simp only [cycleRecord, List.map_eq_nil_iff]
  rw [portCycles_eq, portLog]
  split
  case isTrue h =>
    rw [cycleLog, zero _ hw, record, Nat.min_eq_right h, Nat.sub_eq_zero_of_le h]
    simp [cycleLog]
  case isFalse h =>
    rw [cycleLog, cycleLog, cycleLog, length_portRun, zero _ (by omega), run (by omega), record, record,
      Nat.min_eq_left (by omega), List.append_nil]

/-- What devices see of an access depends on the I/O map alone. -/
theorem State.portLog_congr {s t : State} (h : s.ports = t.ports) (write : Bool) (port n v : Nat) :
    s.portLog write port n v = t.portLog write port n v := by
  have ha : s.portAnswers = t.portAnswers := by funext p; rw [portAnswers, portAnswers, h]
  rw [portLog, portLog, ha]

/-- IoWrite shows the devices its bytes and changes nothing else. -/
theorem ioWrite_record {s : State} (h : s.masters = []) {port : Nat} (hp : port < 65536) (w : Width)
    (v : BitVec w.bits) : ioWrite port w v s = .ok () (s.record (s.portLog true port w.bytes v.toNat)) := by
  rw [ioWrite, writePorts_record h, State.cycleLog_portCycles _ _ hp]

/-- IoRead answers some value, which the devices are shown, and changes nothing else but the count of free values. -/
theorem ioRead_record {s : State} (h : s.masters = []) {port : Nat} (hp : port < 65536) (w : Width) :
    ∃ (v : BitVec w.bits) (n : Nat),
      ioRead port w s = .ok v ({ s with free := n }.record (s.portLog false port w.bytes v.toNat)) := by
  obtain ⟨x, hx, n, e⟩ := readPorts_record h (portCycles port w.bytes)
  have hl : (portCycles port w.bytes).flatten.length = w.bytes := by
    rw [portCycles, flatten_busCycles, length_addrRun]
  have hv : (BitVec.ofNat w.bits x).toNat = x := by
    rw [BitVec.toNat_ofNat, Nat.mod_eq_of_lt]
    rw [hl] at hx
    cases w <;> exact hx
  exact ⟨BitVec.ofNat w.bits x, n, by rw [ioRead, M.bind_ok e, hv, ← State.cycleLog_portCycles _ _ hp]; rfl⟩

end Sys2Proof.Machine
end

