-- ==== Sys2Proof/Tests/Slice0.lean ====
section
/-! SUPPORT. The model's own tests: WellFormed, decoding, single steps from the vectors of 95_test_vectors.md (named in
each comment), and a witness for each statement with hypotheses. -/

namespace Sys2Proof.Machine

/-- A flat segment (95_test_vectors.md, conventions). -/
def flatSeg (code : Bool) : SegReg :=
  { sel := 8, base := 0, limit := 0xFFFFFFFF, valid := true, present := true, dpl := 0, code := code, readable := true,
    writable := !code, expandDown := false, conforming := false, big := true }

/-- "32-bit flat" (95_test_vectors.md, conventions), at 00001000H. -/
def flat : State :=
  { State.reset with
    cr0 := { State.reset.cr0 with pe := true }
    segs := { es := flatSeg false, cs := flatSeg true, ss := flatSeg false, ds := flatSeg false, fs := flatSeg false,
              gs := flatSeg false }
    eip := 0x1000 }

/-- "Real Mode" with every segment at 0, at 0000:0100H. -/
def real : State :=
  { State.reset with
    segs := { es := SegReg.real 0 0, cs := SegReg.real 0 0, ss := SegReg.real 0 0, ds := SegReg.real 0 0,
              fs := SegReg.real 0 0, gs := SegReg.real 0 0 }
    eip := 0x100 }

/-- Bytes placed at successive physical addresses. -/
def State.put (s : State) (a : Nat) (bs : List Byte) : State :=
  { s with mem := bs.zipIdx.foldl (fun m x => m.write ((a + x.2) % 2 ^ 32) x.1) s.mem }

/-- The state with these general registers. -/
def State.gpr (s : State) (eax ecx edx ebx esp ebp esi edi : Dword := 0) : State :=
  { s with regs := ⟨eax, ecx, edx, ebx, esp, ebp, esi, edi⟩ }

/-- CF, PF, AF, ZF, SF, OF. -/
def Flags.status (f : Flags) : List Bool := [f.cf, f.pf, f.af, f.zf, f.sf, f.of]

/-- The word at a physical address. -/
def State.word (s : State) (a : Dword) : Nat := s.mem.readAt (addrRun a 2)

/-- The dword at a physical address. -/
def State.dword (s : State) (a : Dword) : Nat := s.mem.readAt (addrRun a 4)

/-- One step from a state with these bytes at CS:EIP answers a next state of which `p` holds. -/
noncomputable def oneStep (s : State) (bs : List Byte) (p : State → Bool) : Bool :=
  match step (s.put (s.segs.cs.base + s.eip).toNat bs) with
  | .next t => p t
  | _ => false

/-! WellFormed: an ill-formed term for each check, and a well-formed one beside it. -/

theorem test_wf_16_bit_address : (Instr.negRm8 (.mem (.mem16 none 5))).wf false true = false ∧
    (Instr.negRm8 (.mem (.mem16 none 5))).wf false false = true := by decide

theorem test_wf_32_bit_address : (Instr.lea .eax (.mem32 none none 5)).wf true false = false ∧
    (Instr.lea .eax (.mem32 none none 5)).wf true true = true := by decide

theorem test_wf_esp_no_index : (Instr.lea .eax (.mem32 none (some (.esp, 0)) 5)).wf true true = false ∧
    (Instr.lea .eax (.mem32 (some .esp) (some (.ebp, 0)) 5)).wf true true = true := by decide

theorem test_wf_immediate_size : (Instr.pushImmv 0x10000).wf false false = false ∧
    (Instr.pushImmv 0xFFFF).wf false false = true ∧ (Instr.pushImmv 0x10000).wf true false = true := by decide

theorem test_wf_immediate_beside_rm : (Instr.testRmvImmv (.reg .eax) 0x10000).wf false true = false ∧
    (Instr.testRmvImmv (.reg .eax) 0x10000).wf true true = true := by decide

theorem test_wf_offset_size : (Instr.movAlMoffs8 0x10000).wf true false = false ∧
    (Instr.movAlMoffs8 0x10000).wf true true = true := by decide

theorem test_wf_no_mov_to_cs : (Instr.movSregRm16 .cs (.reg .eax)).wf true true = false ∧
    (Instr.movSregRm16 .gs (.reg .eax)).wf true true = true := by decide

theorem test_wf_xchg_eax_is_nop : (Instr.xchgEaxRv .eax).wf true true = false ∧
    (Instr.xchgEaxRv .ecx).wf true true = true := by decide

/-! Decoding: words written out from the encodings of 30_encoding.md (R211 to R219, R230 to R233, R250). -/

/-- What the bytes decode to, in 32-bit code. -/
def reads32 (bs : List Byte) (i : Instr) : Prop := decode true true bs = .ok (i, [])

/-- What the bytes decode to, in 16-bit code. -/
def reads16 (bs : List Byte) (i : Instr) : Prop := decode false false bs = .ok (i, [])

/-- 95_test_vectors.md W1. -/
theorem test_decode_scaled_index : reads32 [0x6B, 0x1C, 0xB5, 0x78, 0x56, 0x34, 0x12, 0x07]
    (.imulRvRmvSimm8 .ebx (.mem (.mem32 none (some (.esi, 2)) 0x12345678)) 7) := by
  unfold reads32; decide

/-- 95_test_vectors.md W1. -/
theorem test_decode_based_index : reads32 [0x8B, 0x04, 0x1E]
    (.movRvRmv .eax (.mem (.mem32 (some .esi) (some (.ebx, 0)) 0))) := by
  unfold reads32; decide

/-- 95_test_vectors.md W1: base EBP with a displacement of 32 bits. -/
theorem test_decode_base_index_disp : reads32 [0x03, 0x94, 0x35, 0xF0, 0xFF, 0xFF, 0x00]
    (.addRvRmv .edx (.mem (.mem32 (some .ebp) (some (.esi, 0)) 0x00FFFFF0))) := by
  unfold reads32; decide

theorem test_decode_disp8_sign : reads32 [0x8B, 0x48, 0x80]
    (.movRvRmv .ecx (.mem (.mem32 (some .eax) none 0xFFFFFF80))) := by
  unfold reads32; decide

theorem test_decode_16_bit_disp : reads16 [0xC6, 0x06, 0x03, 0x03, 0x58]
    (.movRm8Imm8 (.mem (.mem16 none 0x0303)) 0x58) := by
  unfold reads16; decide

theorem test_decode_arithmetic_group : reads32 [0x66] .opSize ∧ decode false true [0x83, 0xE8, 0x01] =
    .ok (.subRmvSimm8 (.reg .eax) 1, []) ∧ reads32 [0xF7, 0xFB] (.idivRmv (.reg .ebx)) := by
  unfold reads32; decide

theorem test_decode_strings : reads32 [0xA6] .cmpsb ∧ reads32 [0x6F] .outsv ∧ reads32 [0xF2] .repne ∧
    reads32 [0xF3] .rep := by
  unfold reads32; decide

theorem test_decode_shifts : reads32 [0xC0, 0xD8, 0x04] (.rcrRm8Imm8 (.reg .eax) 4) ∧
    reads32 [0xD3, 0xE0] (.shlRmvCl (.reg .eax)) ∧ reads32 [0x0F, 0xAC, 0xD8, 0x04] (.shrdImm8 (.reg .eax) .ebx 4) := by
  unfold reads32; decide

theorem test_decode_bits : reads32 [0x0F, 0xBA, 0x3B, 0x07] (.btcRmvImm8 (.mem (.mem32 (some .ebx) none 0)) 7) ∧
    reads32 [0x0F, 0xBD, 0xC3] (.bsr .eax (.reg .ebx)) := by
  unfold reads32; decide

theorem test_decode_control : reads32 [0x7C, 0x10] (.jlRel8 0x10) ∧ reads32 [0xC2, 0x08, 0x00] (.retNearImm16 8) ∧
    reads16 [0xEA, 0x00, 0x10, 0x00, 0x20] (.jmpPtr 0x1000 0x2000) ∧
      reads32 [0x0F, 0x94, 0xC0] (.sete (.reg .eax)) := by
  unfold reads32 reads16; decide

theorem test_decode_high_level : reads32 [0x62, 0x03] (.bound .eax (.mem32 (some .ebx) none 0)) ∧
    reads32 [0xC8, 0x10, 0x00, 0x02] (.enter 16 2) := by
  unfold reads32; decide

theorem test_decode_protection : reads32 [0x0F, 0x00, 0xD8] (.ltr (.reg .eax)) ∧
    reads32 [0x0F, 0x02, 0xC3] (.lar .eax (.reg .ebx)) ∧ reads32 [0x0F, 0x22, 0xD8] (.movCrR32 3 .eax) ∧
    reads32 [0x0F, 0x21, 0xF0] (.movR32Dr .eax 6) ∧ reads32 [0x63, 0xD8] (.arpl (.reg .eax) .ebx) := by
  unfold reads32; decide

theorem test_decode_processor_control : reads32 [0x9B] .wait ∧ reads32 [0xD9, 0xC0] (.esc 1 0 (.reg .eax)) ∧
    reads32 [0x90] .nop := by
  unfold reads32; decide

/-- MOV to CS, LEA of a register and a reserved extension of 8FH are no instructions; SALC is undocumented. -/
theorem test_decode_reserved : decode true true [0x8E, 0xC8] = .error (.invalid []) ∧
    decode true true [0x8D, 0xC0] = .error (.invalid []) ∧ decode true true [0x8F, 0x08] = .error (.invalid []) ∧
    decode true true [0xD6] = .error (.undocumented []) ∧ decode true true [0x8D] = .error .short := by
  decide

theorem test_encode : encode true true (.lea .eax (.mem32 (some .eax) (some (.ecx, 2)) 0x10)) =
    [0x8D, 0x84, 0x88, 0x10, 0x00, 0x00, 0x00] := by decide

/-- The table's word of `C8 10 00 00`, low byte first. -/
theorem test_table_word : decodeTableWord 32 0x000010C8 = some (.enter 0x10 0) := by decide

/-! Single steps. -/

/-- T1. -/
theorem test_mov_high_byte : oneStep
    (flat.gpr (eax := 0xAB00))
    [0x88, 0xE0] (fun t => t.regs.eax = 0xABAB) := by decide

/-- T2. -/
theorem test_mov_from_bp : oneStep
    (({ real.gpr (ebp := 0x100) (esi := 0x10) with
        segs := { real.segs with ss := SegReg.real 0x2000 0x20000 } } : State).put 0x20112 [0xA5, 0x5A])
    [0x8B, 0x42, 0x02] (fun t => t.regs.eax = 0x5AA5) := by decide

/-- T3. -/
theorem test_mov_keeps_upper_half : oneStep
    (flat.gpr (eax := 0xFFFFFFFF))
    [0x66, 0xB8, 0x34, 0x12] (fun t => t.regs.eax = 0xFFFF1234 ∧ t.eip = 0x1004) := by decide

/-- T5. -/
theorem test_mov_moffs : oneStep
    (flat.gpr (eax := 0x11223344))
    [0xA3, 0x00, 0x20, 0x00, 0x00] (fun t => t.dword 0x2000 = 0x11223344) := by decide

/-- T6. -/
theorem test_mov_to_cs_refused : oneStep
    real
    [0x8E, 0xC8] (fun t => t.segs.cs.sel = 0 ∧ t.eip = 0 ∧ t.word 0xFFFA = 0x100) := by decide

/-- T8. -/
theorem test_push_imm8 : oneStep
    (flat.gpr (esp := 0x1000))
    [0x6A, 0xFF] (fun t => t.dword 0xFFC = 0xFFFFFFFF ∧ t.regs.esp = 0xFFC) := by decide

/-- T10. -/
theorem test_push_sp : oneStep
    (real.gpr (esp := 0x100))
    [0x54] (fun t => t.word 0xFE = 0x100 ∧ t.regs.esp = 0xFE) := by decide

/-- T11. -/
theorem test_pop_at_esp : oneStep
    ((flat.gpr (esp := 0xFFC)).put 0xFFC [0xAA])
    [0x8F, 0x04, 0x24] (fun t => t.dword 0x1000 = 0xAA ∧ t.regs.esp = 0x1000) := by decide

/-- T14. -/
theorem test_xchg : oneStep
    ((flat.gpr (eax := 0x1) (ebx := 0x2000)).put 0x2000 [0x02])
    [0x87, 0x03] (fun t => t.dword 0x2000 = 0x1 ∧ t.regs.eax = 0x2) := by decide

/-- T15. -/
theorem test_xlat_wraps : oneStep
    ((real.gpr (ebx := 0xFFFF) (eax := 0x2)).put 0x1 [0x77])
    [0xD7] (fun t => t.regs.eax = 0x77) := by decide

/-- T16. -/
theorem test_movzx : oneStep
    (flat.gpr (ebx := 0x1234FFFF))
    [0x0F, 0xB7, 0xC3] (fun t => t.regs.eax = 0xFFFF) := by decide

/-- T17. -/
theorem test_movsx : oneStep
    (flat.gpr (ebx := 0x80))
    [0x66, 0x0F, 0xBE, 0xC3] (fun t => t.regs.eax = 0xFF80) := by decide

/-- T18. -/
theorem test_cwd : oneStep
    (flat.gpr (eax := 0x8000))
    [0x66, 0x99] (fun t => t.regs.edx = 0xFFFF) := by decide

/-- T19. -/
theorem test_cwde : oneStep
    (flat.gpr (eax := 0x12347FFF))
    [0x98] (fun t => t.regs.eax = 0x7FFF) := by decide

/-- T20. -/
theorem test_lea_16 : oneStep
    (flat.gpr (ebx := 0x1FFFF) (esi := 0x2))
    [0x67, 0x8D, 0x00] (fun t => t.regs.eax = 0x1) := by decide

/-- 40_data_transfer.md R330. -/
theorem test_lea_sib : oneStep
    (flat.gpr (eax := 0x1000) (ecx := 0x3))
    [0x8D, 0x44, 0x88, 0x10] (fun t => t.regs.eax = 0x101C) := by decide

/-- 40_data_transfer.md R331. -/
theorem test_lds : oneStep
    ((real.gpr (ebx := 0x200)).put 0x200 [0x34, 0x12, 0x00, 0x20])
    [0xC5, 0x37] (fun t => t.regs.esi = 0x1234 ∧ t.segs.ds.sel = 0x2000 ∧ t.segs.ds.base = 0x20000) := by decide

/-- T23. -/
theorem test_lahf : oneStep
    flat
    [0x9F] (fun t => t.regs.eax = 0x200) := by decide

/-- T24. -/
theorem test_pushf : oneStep
    ({ flat.gpr (esp := 0x1000) with flags := { State.reset.flags with cf := true, ifl := true, iopl := 3 } })
    [0x9C] (fun t => t.dword 0xFFC = 0x3203) := by decide

/-- T26. -/
theorem test_popf : oneStep
    ((flat.gpr (esp := 0x2000)).put 0x2000 [0xFF, 0xFF, 0xFF, 0xFF])
 
        [0x9D] (fun t => t.flags = ⟨true, true, true, true, true, true, true, true, true, 3, true, true,
          false⟩) := by decide

/-- T28. -/
theorem test_out : oneStep
    (real.gpr (edx := 0xCF8) (eax := 0x80000000))
    [0x66, 0xEF] (fun t => t.ioLog = [.port true [(0xCF8, 0), (0xCF9, 0), (0xCFA, 0), (0xCFB, 0x80)]]) := by decide

/-- 20_memory.md R116 and R172: a dword at port 0CFBH takes two cycles, the three high bytes first. -/
theorem test_out_misaligned : oneStep
    (real.gpr (edx := 0xCFB) (eax := 0x12345678))
    [0x66, 0xEF] (fun t => t.ioLog = [.port true [(0xCFB, 0x78)],
      .port true [(0xCFC, 0x56), (0xCFD, 0x34), (0xCFE, 0x12)]]) := by decide

/-- 20_memory.md R175 and U19 of 93_implementation_defined.md: nothing answers port FFFFH, a device port 10000H. -/
theorem test_out_absent : oneStep
    { real.gpr (edx := 0xFFFF) (eax := 0x5678) with ports := [{ first := 0, last := 0xFFFF, device := false }] }
    [0xEF] (fun t => t.ioLog = [.port true [(0x10000, 0x56)]]) := by decide

/-- 20_memory.md R175: an absent port gives a value and is shown no cycle. -/
theorem test_in_absent : oneStep
    { real with ports := [{ first := 0x60, last := 0x60, device := false }] }
    [0xE4, 0x60] (fun t => t.ioLog = [] ∧ t.eip = 0x102) := by decide

/-- A1. -/
theorem test_add_overflow : oneStep
    (flat.gpr (eax := 0x7F) (ebx := 0x1))
    [0x00, 0xD8] (fun t => t.regs.eax = 0x80 ∧ t.flags.status = [false, false, true, false, true, true]) := by decide

/-- A4. -/
theorem test_adc : oneStep
    ({ flat.gpr (eax := 0xFF) with flags := { State.reset.flags with cf := true } })
    [0x10, 0xD8] (fun t => t.regs.eax = 0x0 ∧ t.flags.status = [true, true, true, true, false, false]) := by decide

/-- A5. -/
theorem test_sbb : oneStep
    ({ flat with flags := { State.reset.flags with cf := true } })
    [0x19, 0xD8] (fun t => t.regs.eax = 0xFFFFFFFF ∧
      t.flags.status = [true, true, true, false, true, false]) := by decide

/-- A6. -/
theorem test_sub_word : oneStep
    (flat.gpr (eax := 0x8000))
    [0x66, 0x83, 0xE8, 0x01] (fun t => t.regs.eax = 0x7FFF ∧
      t.flags.status = [false, true, true, false, false, true]) := by decide

/-- A7. -/
theorem test_cmp : oneStep
    (flat.gpr (eax := 0x5) (ebx := 0x5))
    [0x39, 0xD8] (fun t => t.regs.eax = 0x5 ∧ t.flags.status = [false, true, false, true, false, false]) := by decide

/-- A8. -/
theorem test_inc_keeps_carry : oneStep
    ({ flat.gpr (eax := 0x7FFF) with flags := { State.reset.flags with cf := true } })
    [0x66, 0x40] (fun t => t.regs.eax = 0x8000 ∧ t.flags.status = [true, true, true, false, true, true]) := by decide

/-- A10. -/
theorem test_neg : oneStep
    (flat.gpr (eax := 0x80))
    [0xF6, 0xD8] (fun t => t.regs.eax = 0x80 ∧ t.flags.status = [true, false, false, false, true, true]) := by decide

/-- A13. -/
theorem test_daa : oneStep
    (flat.gpr (eax := 0xAE))
    [0x27] (fun t => t.regs.eax = 0x14 ∧ t.flags.cf = true ∧ t.flags.pf = true ∧ t.flags.af = true ∧
      t.flags.zf = false ∧ t.flags.sf = false) := by decide

/-- A17. -/
theorem test_aaa : oneStep
    (flat.gpr (eax := 0xF))
    [0x37] (fun t => t.regs.eax = 0x105 ∧ t.flags.cf = true ∧ t.flags.af = true) := by decide

/-- A20. -/
theorem test_aam : oneStep
    (flat.gpr (eax := 0x3F))
    [0xD4, 0x0A] (fun t => t.regs.eax = 0x603 ∧ t.flags.pf = true ∧ t.flags.zf = false ∧
      t.flags.sf = false) := by decide

/-- A22. -/
theorem test_aad : oneStep
    (flat.gpr (eax := 0x603))
    [0xD5, 0x0A] (fun t => t.regs.eax = 0x3F ∧ t.flags.pf = true ∧ t.flags.zf = false ∧
      t.flags.sf = false) := by decide

/-- A23. -/
theorem test_mul : oneStep
    (flat.gpr (eax := 0xFFFFFFFF) (ebx := 0x2))
    [0xF7, 0xE3] (fun t => t.regs.edx = 0x1 ∧ t.regs.eax = 0xFFFFFFFE ∧ t.flags.cf = true ∧
      t.flags.of = true) := by decide

/-- A25. -/
theorem test_imul_byte : oneStep
    (flat.gpr (eax := 0xFF) (ebx := 0x2))
    [0xF6, 0xEB] (fun t => t.regs.eax = 0xFFFE ∧ t.flags.cf = false ∧ t.flags.of = false) := by decide

/-- A26. -/
theorem test_imul_imm : oneStep
    (flat.gpr (ebx := 0x40000000))
    [0x6B, 0xC3, 0x07] (fun t => t.regs.eax = 0xC0000000 ∧ t.flags.cf = true ∧ t.flags.of = true) := by decide

/-- A28. -/
theorem test_div : oneStep
    (flat.gpr (edx := 0x0) (eax := 0x64) (ebx := 0x7))
    [0xF7, 0xF3] (fun t => t.regs.eax = 0xE ∧ t.regs.edx = 0x2) := by decide

/-- A31. -/
theorem test_idiv : oneStep
    (flat.gpr (edx := 0xFFFFFFFF) (eax := 0xFFFFFFF9) (ebx := 0x2))
    [0xF7, 0xFB] (fun t => t.regs.eax = 0xFFFFFFFD ∧ t.regs.edx = 0xFFFFFFFF) := by decide

/-- program D step 3. -/
theorem test_div_by_zero : oneStep
    ((real.gpr (eax := 0x64) (esp := 0x1000)).put 0x0 [0x00, 0x02, 0x00, 0x00])
    [0xF6, 0xF3] (fun t => t.eip = 0x200 ∧ t.regs.eax = 0x64 ∧ t.regs.esp = 0xFFA ∧ t.word 0xFFA = 0x100 ∧
      t.word 0xFFC = 0x0 ∧ t.word 0xFFE = 0x2) := by decide

/-- G1. -/
theorem test_movsd : oneStep
    ((flat.gpr (esi := 0x2000) (edi := 0x3000)).put 0x2000 [0x01, 0x02, 0x03, 0x04])
    [0xA5] (fun t => t.dword 0x3000 = 0x4030201 ∧ t.regs.esi = 0x2004 ∧ t.regs.edi = 0x3004) := by decide

/-- G4. -/
theorem test_rep_movsb_first : oneStep
    ((flat.gpr (esi := 0x2000) (edi := 0x3000) (ecx := 0x3)).put 0x2000 [0x41])
    [0xF3, 0xA4] (fun t => t.regs.ecx = 0x2 ∧ t.eip = 0x1000 ∧ t.mem.read 0x3000 = 0x41) := by decide

/-- G6, fourth element. -/
theorem test_repe_cmpsb_ends : oneStep
    (((flat.gpr (esi := 0x2003) (edi := 0x3003) (ecx := 0x2)).put 0x2003 [0x4C]).put 0x3003 [0x58])
    [0xF3, 0xA6] (fun t => t.regs.ecx = 0x1 ∧ t.regs.esi = 0x2004 ∧ t.regs.edi = 0x3004 ∧ t.eip = 0x1002 ∧
      t.flags.status = [true, false, false, false, true, false]) := by decide

/-- G8, third element. -/
theorem test_repne_scasb_ends : oneStep
    (flat.gpr (edi := 0x3000) (ecx := 0x8))
    [0xF2, 0xAE] (fun t => t.regs.ecx = 0x7 ∧ t.regs.edi = 0x3001 ∧ t.eip = 0x1002 ∧
      t.flags.status = [false, true, false, true, false, false]) := by decide

/-- G11. -/
theorem test_movsb_16_bit_addresses : oneStep
    ((flat.gpr (esi := 0x1234FFFF) (edi := 0x10000)).put 0xFFFF [0x55])
    [0x67, 0xA4] (fun t => t.regs.esi = 0x12340000 ∧ t.regs.edi = 0x10001 ∧ t.mem.read 0x0 = 0x55) := by decide

/-- G15. -/
theorem test_rep_outsd_first : oneStep
    ((flat.gpr (esi := 0x2000) (ecx := 0x2) (edx := 0x170)).put 0x2000 [0xAA])
    [0xF3, 0x6F] (fun t => t.ioLog = [.port true [(0x170, 0xAA), (0x171, 0), (0x172, 0), (0x173, 0)]] ∧
      t.regs.esi = 0x2004 ∧ t.regs.ecx = 0x1 ∧
      t.eip = 0x1000) := by decide

/-- B1. -/
theorem test_not : oneStep
    (flat.gpr (eax := 0xF0F0F0F))
    [0xF7, 0xD0] (fun t => t.regs.eax = 0xF0F0F0F0) := by decide

/-- B4. -/
theorem test_xor : oneStep
    (flat.gpr (eax := 0x1234))
    [0x31, 0xC0] (fun t => t.regs.eax = 0x0 ∧ t.flags.cf = false ∧ t.flags.pf = true ∧ t.flags.zf = true ∧
      t.flags.sf = false ∧ t.flags.of = false) := by decide

/-- B8. -/
theorem test_shl_masked_count : oneStep
    ({ flat.gpr (eax := 0x12) with flags := { State.reset.flags with cf := true } })
    [0xC1, 0xE0, 0x20] (fun t => t.regs.eax = 0x12 ∧
      t.flags.status = [true, false, false, false, false, false]) := by decide

/-- B12. -/
theorem test_shr : oneStep
    (flat.gpr (eax := 0x80000001))
    [0xD1, 0xE8] (fun t => t.regs.eax = 0x40000000 ∧ t.flags.cf = true ∧ t.flags.pf = true ∧ t.flags.zf = false ∧
      t.flags.sf = false ∧ t.flags.of = true) := by decide

/-- B15. -/
theorem test_shld : oneStep
    (flat.gpr (eax := 0x12345678) (ebx := 0x9ABCDEF0))
    [0x0F, 0xA4, 0xD8, 0x08] (fun t => t.regs.eax = 0x3456789A ∧ t.flags.cf = false ∧ t.flags.pf = true ∧
      t.flags.zf = false ∧ t.flags.sf = false) := by decide

/-- B20. -/
theorem test_rol : oneStep
    (flat.gpr (eax := 0x81))
    [0xC0, 0xC0, 0x08] (fun t => t.regs.eax = 0x81 ∧ t.flags.cf = true) := by decide

/-- B23. -/
theorem test_rcl : oneStep
    ({ flat.gpr (eax := 0xA5) with flags := { State.reset.flags with cf := true } })
    [0xC0, 0xD0, 0x09] (fun t => t.regs.eax = 0xA5 ∧ t.flags.cf = true) := by decide

/-- X3. -/
theorem test_bts_negative_offset : oneStep
    (flat.gpr (ebx := 0x2000) (eax := 0xFFFFFFFF))
    [0x0F, 0xAB, 0x03] (fun t => t.dword 0x1FFC = 0x80000000 ∧ t.flags.cf = false) := by decide

/-- X6. -/
theorem test_btc : oneStep
    ((flat.gpr (ebx := 0x2000)).put 0x2000 [0x80])
    [0x0F, 0xBA, 0x3B, 0x07] (fun t => t.dword 0x2000 = 0x0 ∧ t.flags.cf = true) := by decide

/-- X7. -/
theorem test_bsf : oneStep
    (flat.gpr (ebx := 0xC00))
    [0x0F, 0xBC, 0xC3] (fun t => t.regs.eax = 0xA ∧ t.flags.zf = false) := by decide

/-- K3. -/
theorem test_jl_taken : oneStep
    ({ flat with flags := { State.reset.flags with sf := true } })
    [0x7C, 0x10] (fun t => t.eip = 0x1012) := by decide

/-- K6. -/
theorem test_jmp_16 : oneStep
    ({ flat with eip := 0x11000 })
    [0x66, 0xE9, 0x00, 0x80] (fun t => t.eip = 0x9004) := by decide

/-- K7. -/
theorem test_sete : oneStep
    ({ flat.gpr (eax := 0xFFFFFFFF) with flags := { State.reset.flags with zf := true } })
    [0x0F, 0x94, 0xC0] (fun t => t.regs.eax = 0xFFFFFF01) := by decide

/-- K8. -/
theorem test_call : oneStep
    (flat.gpr (esp := 0x2000))
    [0xE8, 0xFB, 0xFF, 0xFF, 0xFF] (fun t => t.dword 0x1FFC = 0x1005 ∧ t.regs.esp = 0x1FFC ∧
      t.eip = 0x1000) := by decide

/-- K10. -/
theorem test_ret_imm : oneStep
    ((flat.gpr (esp := 0x1FF8)).put 0x1FF8 [0x34, 0x12])
    [0xC2, 0x08, 0x00] (fun t => t.eip = 0x1234 ∧ t.regs.esp = 0x2004) := by decide

/-- K12. -/
theorem test_loop_ends : oneStep
    (flat.gpr (ecx := 0x1))
    [0xE2, 0xFE] (fun t => t.regs.ecx = 0x0 ∧ t.eip = 0x1002) := by decide

/-- K13. -/
theorem test_loop_cx : oneStep
    (flat.gpr (ecx := 0x10001))
    [0x67, 0xE2, 0xFE] (fun t => t.regs.ecx = 0x10000 ∧ t.eip = 0x1003) := by decide

/-- K16. -/
theorem test_jmp_far_real : oneStep
    real
    [0xEA, 0x00, 0x10, 0x00, 0x20] (fun t => t.segs.cs.sel = 0x2000 ∧ t.segs.cs.base = 0x20000 ∧
      t.eip = 0x1000) := by decide

/-- K17. -/
theorem test_call_far_real : oneStep
    (real.gpr (esp := 0x1000))
    [0x9A, 0x00, 0x10, 0x00, 0x20] (fun t => t.word 0xFFE = 0x0 ∧ t.word 0xFFC = 0x105 ∧ t.regs.esp = 0xFFC ∧
      t.eip = 0x1000) := by decide

/-- K19. -/
theorem test_jmp_far_protected : oneStep
    (({ flat with gdtr := ⟨0x800, 0x17⟩ } : State).put 0x808 [0xFF, 0xFF, 0, 0, 0, 0x9A, 0xCF])
    [0xEA, 0x00, 0x00, 0x00, 0x00, 0x08, 0x00] (fun t => t.segs.cs.sel = 8 ∧ t.segs.cs.limit = 0xFFFFFFFF ∧
      t.cpl = 0 ∧ t.eip = 0x0 ∧ t.mem.read 0x80D = 0x9B) := by decide

/-- K24. -/
theorem test_int_real : oneStep
    (({ real.gpr (esp := 0x1000) with flags := { State.reset.flags with ifl := true } }).put 0x84 [0x00, 0x30,
      0x00, 0xC0])
    [0xCD, 0x21] (fun t => t.word 0xFFE = 0x202 ∧ t.word 0xFFC = 0x0 ∧ t.word 0xFFA = 0x102 ∧ t.regs.esp = 0xFFA ∧
      t.flags.ifl = false ∧ t.flags.tf = false ∧ t.segs.cs.sel = 0xC000 ∧ t.eip = 0x3000) := by decide

/-- K25. -/
theorem test_iret_real : oneStep
    ((real.gpr (esp := 0xFFA)).put 0xFFA [0x02, 0x01, 0x00, 0x00, 0x02, 0x02])
    [0xCF] (fun t => t.eip = 0x102 ∧ t.flags.ifl = true ∧ t.regs.esp = 0x1000) := by decide

/-- H1. -/
theorem test_bound_passes : oneStep
    ((flat.gpr (ebx := 0x2000) (eax := 0x9)).put 0x2004 [0x09])
    [0x62, 0x03] (fun t => t.eip = 0x1002) := by decide

/-- H3. -/
theorem test_enter : oneStep
    (flat.gpr (esp := 0x1000) (ebp := 0x2000))
    [0xC8, 0x10, 0x00, 0x00] (fun t => t.dword 0xFFC = 0x2000 ∧ t.regs.ebp = 0xFFC ∧ t.regs.esp = 0xFEC) := by decide

/-- H4. -/
theorem test_enter_nested : oneStep
    ((flat.gpr (esp := 0x1000) (ebp := 0x2000)).put 0x1FFC [0xAA, 0xAA])
    [0xC8, 0x00, 0x00, 0x02] (fun t => t.dword 0xFFC = 0x2000 ∧ t.dword 0xFF8 = 0xAAAA ∧ t.dword 0xFF4 = 0xFFC ∧
      t.regs.ebp = 0xFFC ∧ t.regs.esp = 0xFF4) := by decide

/-- M1. -/
theorem test_lgdt_16 : oneStep
    (real.put 0x700 [0x17, 0x00, 0x00, 0x08, 0x00, 0xFF])
    [0x0F, 0x01, 0x16, 0x00, 0x07] (fun t => t.gdtr = ⟨0x800, 0x17⟩) := by decide

/-- M4. -/
theorem test_lldt_real : oneStep
    ((real.gpr (esp := 0x1000)).put 0x18 [0x00, 0x04])
    [0x0F, 0x00, 0xD0] (fun t => t.eip = 0x400) := by decide

/-- M5. -/
theorem test_ltr : oneStep
    (({ flat.gpr (eax := 0x28) with gdtr := ⟨0x800, 0x2F⟩ } : State).put 0x828 [0x67, 0x00, 0x00, 0x30, 0x00, 0x89,
      0x00, 0x00])
    [0x0F, 0x00, 0xD8] (fun t => t.tr = ⟨0x28, 0x3000, 0x67, true⟩ ∧ t.mem.read 0x82D = 0x8B) := by decide

/-- M7. -/
theorem test_arpl : oneStep
    (flat.gpr (eax := 0x10) (ebx := 0x3))
    [0x63, 0xD8] (fun t => t.regs.eax = 0x13 ∧ t.flags.zf = true) := by decide

/-- M10. -/
theorem test_lar : oneStep
    (({ flat.gpr (ebx := 0x8) with gdtr := ⟨0x800, 0x2F⟩ } : State).put 0x808 [0xFF, 0xFF, 0x00, 0x00, 0x00, 0x9A,
      0xCF, 0x00])
    [0x0F, 0x02, 0xC3] (fun t => t.regs.eax = 0xC09A00 ∧ t.flags.zf = true) := by decide

/-- M11. -/
theorem test_lsl : oneStep
    (({ flat.gpr (ebx := 0x8) with gdtr := ⟨0x800, 0x2F⟩ } : State).put 0x808 [0xFF, 0xFF, 0x00, 0x00, 0x00, 0x9A,
      0xCF, 0x00])
    [0x0F, 0x03, 0xC3] (fun t => t.regs.eax = 0xFFFFFFFF ∧ t.flags.zf = true) := by decide

/-- M15. -/
theorem test_verw : oneStep
    (({ flat.gpr (ebx := 0x10) with gdtr := ⟨0x800, 0x2F⟩ } : State).put 0x810 [0xFF, 0xFF, 0x00, 0x00, 0x00, 0x92,
      0xCF, 0x00])
    [0x0F, 0x00, 0xEB] (fun t => t.flags.zf = true) := by decide

/-- M18. -/
theorem test_lmsw_keeps_pe : oneStep
    ({ flat with cr0 := { flat.cr0 with mp := true, em := true, ts := true } })
    [0x0F, 0x01, 0xF0] (fun t => t.cr0 = flat.cr0) := by decide

/-- M20. -/
theorem test_clts : oneStep
    ({ flat with cr0 := { flat.cr0 with ts := true } })
    [0x0F, 0x06] (fun t => t.cr0.ts = false) := by decide

/-- M22. -/
theorem test_mov_cr3 : oneStep
    (flat.gpr (eax := 0x10FFF))
    [0x0F, 0x22, 0xD8] (fun t => t.cr3 = 0x10) := by decide

/-- P2. -/
theorem test_hlt : oneStep
    flat
    [0xF4] (fun t => t.run = .halted ∧ t.eip = 0x1001) := by decide

/-- P5 in Real Mode. -/
theorem test_esc_emulated : oneStep
    (({ real.gpr (esp := 0x1000) with cr0 := { State.reset.cr0 with em := true } }).put 0x1C [0x00, 0x04])
    [0xD9, 0xC0] (fun t => t.eip = 0x400 ∧ t.word 0xFFA = 0x100) := by decide

/-- P8. -/
theorem test_lock_add : oneStep
    (flat.gpr (ebx := 0x2000) (eax := 0x5))
    [0xF0, 0x01, 0x03] (fun t => t.dword 0x2000 = 0x5) := by decide +kernel

/-- 40_data_transfer.md R307. -/
theorem test_mov_ss_inhibits : oneStep
    (real.gpr (eax := 0x2000))
    [0x8E, 0xD0] (fun t => t.segs.ss.base = 0x20000 ∧ t.inhibit = true) := by decide

/-- Z4. -/
theorem test_reset_jump : oneStep
    State.reset
    [0xE9, 0x0D, 0x00] (fun t => t.eip = 0x0 ∧ t.segs.cs.base = 0xFFFF0000) := by decide

/-- 20_memory.md R116 and R187: the word at 3 takes two cycles, byte 4 first, and another master writes between them. -/
theorem test_torn_read : oneStep
    { real with masters := [[], [], [{ addr := 3, value := 7 }, { addr := 4, value := 9 }]] }
    [0x8B, 0x06, 0x03, 0x00] (fun t => t.regs.eax = 7 ∧ t.word 3 = 0x907) := by decide +kernel

/-- 20_memory.md R104 and 92_eei_decisions.md D5: ROM drops what is written. -/
theorem test_rom_keeps : oneStep
    { real.gpr (eax := 5) with map := [{ first := 0x800, last := 0x8FF, kind := .rom }] }
    [0xA3, 0x00, 0x20] (fun t => t.word 0x2000 = 0) := by decide +kernel

/-- 20_memory.md R131 and R186: the page of the code is made present by another master while the fetch walks. -/
theorem test_fetch_begins_again : oneStep
    ((({ flat with cr0 := { flat.cr0 with pg := true }, masters := [[], [{ addr := 0x2004, value := 3 }]] } : State).put 0
      [3, 0x20]).put 0x2005 [0x10])
    [0xF9] (fun t => t.eip = 0x1001 ∧ t.flags.cf = true ∧ t.masters = []) := by decide +kernel

/-- E16, first half. -/
theorem test_single_step : oneStep
    ({ flat with flags := { State.reset.flags with tf := true } })
    [0x90] (fun t => t.pend.bs = true ∧ t.eip = 0x1001) := by decide

/-- 60_exceptions.md R683: breakpoints 0 and 1 match and only 0 is enabled, so it alone is pending; GE and LE are 0. -/
theorem test_data_breakpoint_pending : oneStep
    { flat with dr := { flat.dr with dr0 := 0x2000, dr1 := 0x2000 }, dr7 := 0x00330002 }
    [0xA0, 0x00, 0x20, 0x00, 0x00] (fun t => t.pend.data = 1 ∧ t.pend.exact = 0) := by decide

/-- 60_exceptions.md R690: SP = 6 is room for NMI to end a shutdown, SP = 5 is not. -/
theorem test_shutdown_nmi :
    ([5, 6] : List Dword).all fun sp =>
      match step { real.gpr (esp := sp) with run := .shutdown, nmiPending := true } with
      | .next t => decide (t.run = if sp = 6 then .running else .shutdown)
      | _ => false := by decide

/-! Witnesses: for each statement with hypotheses, states and operands that meet all of them, clause by clause. -/

/-- An answer found by computing it. -/
theorem answers {α : Type} [DecidableEq α] {x : EStateM.Result Trap State α} {a : α} {t : State}
    (h : (match x with | .ok b u => decide (b = a ∧ u = t) | .error _ _ => false) = true) : x = .ok a t := by
  cases x with
  | ok b u => obtain ⟨rfl, rfl⟩ := of_decide_eq_true h; rfl
  | error => cases h

/-- That there is an answer, found by computing it. -/
theorem answers_some {α : Type} {x : EStateM.Result Trap State α}
    (h : (match x with | .ok _ _ => true | .error _ _ => false) = true) : ∃ a t, x = .ok a t := by
  cases x with
  | ok b u => exact ⟨b, u, rfl⟩
  | error => cases h

/-- Stack and string tests: Real Mode with room on the stack. -/
def stacked : State := real.gpr (esp := 0x1000)

/-- After reset, with another master that writes byte 3 at the first two moments it can have the bus. -/
def contested : State := { State.reset with masters := [[{ addr := 3, value := 7 }], [{ addr := 3, value := 8 }]] }

/-- After reset, with the bytes 0 to 3 answered by something. -/
def mapped (k : PhysKind) : State := { State.reset with map := [{ first := 0, last := 0, kind := k }] }

/-- In Virtual 8086 Mode with IOPL 0. -/
def virtual : State := { flat with cpl := 3, flags := { flat.flags with vm := true } }

theorem witness_BinaryToRmResult : State.reset.closed = true ∧ addForms ∈ binaryForms ∧
    addForms.ToRm State.reset (.addRm8R8 (.mem (.mem16 none 0xFFFF)) .ebx) .w8 (.mem (.mem16 none 0xFFFF)) 0 ∧
    locate .w8 (.mem (.mem16 none 0xFFFF)) true State.reset = .ok (.mem [0xFFFF]) State.reset :=
  ⟨rfl, by simp [binaryForms], .rm8R8 _ _, rfl⟩

theorem witness_BinaryFromRmResult : State.reset.closed = true ∧ xorForms ∈ binaryForms ∧
    xorForms.FromRm State.reset (.xorRvRmv .ecx (.reg .eax)) .w16 .ecx (.reg .eax) ∧
    locate .w16 (.reg .eax) false State.reset = .ok (.reg .eax) State.reset :=
  ⟨rfl, by simp [binaryForms], .rvRmv _ _, rfl⟩

theorem witness_CompareAndTestSetFlagsOnly : State.reset.closed = true ∧
    locate .w8 (.reg .eax) false State.reset = .ok (.reg .eax) State.reset ∧
    cmpForms.ToRm State.reset (.cmpAlImm8 5) .w8 (.reg .eax) 5 ∧
    cmpForms.FromRm State.reset (.cmpR8Rm8 .ebx (.reg .eax)) .w8 .ebx (.reg .eax) ∧
    TestForm State.reset (.testAlImm8 5) .w8 (.reg .eax) 5 :=
  ⟨rfl, rfl, .alImm8 _, .r8Rm8 _ _, .alImm8 _⟩

theorem witness_UnaryResultAndFlags : State.reset.closed = true ∧ (∃ g f,
    UnaryForm State.reset (.negRm8 (.reg .eax)) .w8 (.reg .eax) g f) ∧
    locate .w8 (.reg .eax) true State.reset = .ok (.reg .eax) State.reset ∧
    contested.map = [] ∧ contested.dec.held = false ∧
    locate .w8 (.mem (.mem16 none 3)) true contested = .ok (.mem [3]) contested :=
  ⟨rfl, ⟨_, _, .negRm8 _⟩, rfl, rfl, rfl, rfl⟩

theorem witness_MultiplyGivesProduct : State.reset.closed = true ∧
    locate .w16 (.reg .edx) false State.reset = .ok (.reg .edx) State.reset ∧
    MulForm State.reset (.imulRmv (.reg .edx)) .w16 (.reg .edx) true ∧
    MulRegForm State.reset (.imulRvRmvSimm8 .eax (.reg .edx) 0x80) .w16 .eax (.reg .edx) 0xFF80 :=
  ⟨rfl, rfl, .imulRmv _, .simm8 _ _ _⟩

/-- AX / r/m8: by zero, and with the quotients 255 and 256. -/
theorem witness_DivideGivesQuotientOrFaults :
    (let s := real.gpr (eax := 0xFF)
     s.closed = true ∧ DivForm s (.divRm8 (.reg .ebx)) .w8 (.reg .ebx) false ∧
       locate .w8 (.reg .ebx) false s = .ok (.reg .ebx) s ∧ asInt false (s.placeValue .w8 (.reg .ebx)) = 0) ∧
    (let s := real.gpr (eax := 0xFF) (ebx := 1)
     s.closed = true ∧ DivForm s (.divRm8 (.reg .ebx)) .w8 (.reg .ebx) false ∧
       locate .w8 (.reg .ebx) false s = .ok (.reg .ebx) s ∧ asInt false (s.placeValue .w8 (.reg .ebx)) = 1 ∧
       asInt false (s.regs.double .w8) = 255 * 1 + 0 ∧ |(0 : Int)| < |1| ∧ Fits false 8 255) ∧
    (let s := real.gpr (eax := 0x100) (ebx := 1)
     s.closed = true ∧ DivForm s (.divRm8 (.reg .ebx)) .w8 (.reg .ebx) false ∧
       locate .w8 (.reg .ebx) false s = .ok (.reg .ebx) s ∧ asInt false (s.placeValue .w8 (.reg .ebx)) = 1 ∧
       asInt false (s.regs.double .w8) = 256 * 1 + 0 ∧ |(0 : Int)| < |1| ∧ ¬ Fits false 8 256) :=
  ⟨⟨rfl, .divRm8 _, rfl, rfl⟩, ⟨rfl, .divRm8 _, rfl, rfl, rfl, by decide, by unfold Fits; decide⟩,
    ⟨rfl, .divRm8 _, rfl, rfl, rfl, by decide, by unfold Fits; decide⟩⟩

theorem witness_DecimalAdjustGivesAl : State.reset.closed = true := rfl

/-- AL = FAH with AF = 0 adjusts with AH open; F9H + the adjustment leaves AH defined. -/
theorem witness_AsciiAdjustGivesAx : ∀ al ∈ [(0xF9 : Byte), 0xFA, 0x05, 0x06],
    (real.gpr (eax := al.setWidth 32)).closed = true ∧ (real.gpr (eax := al.setWidth 32)).regs.read .w8 .eax = al := by
  decide

theorem witness_AsciiMultiplyDivideGivesAx : State.reset.closed = true ∧ (0x0A : Byte) ≠ 0 := ⟨rfl, by decide⟩

theorem witness_ShiftRotateResult : ∀ count ∈ [(0 : Byte), 1, 31, 32], State.reset.closed = true ∧
    ShiftForm State.reset .rcl (.rclRm8Imm8 (.reg .eax) count) .w8 (.reg .eax) count ∧
    locate .w8 (.reg .eax) true State.reset = .ok (.reg .eax) State.reset :=
  fun _ _ => ⟨rfl, .rm8Imm8 _ _, rfl⟩

/-- Counts 0, 1, 16 and 17 with a 16-bit operand. -/
theorem witness_DoubleShiftResult : ∀ count ∈ [(32 : Byte), 1, 16, 17], State.reset.closed = true ∧
    State.reset.vWidth = .w16 ∧
    DoubleForm State.reset true (.shldImm8 (.reg .eax) .ecx count) (.reg .eax) .ecx count ∧
    locate State.reset.vWidth (.reg .eax) true State.reset = .ok (.reg .eax) State.reset :=
  fun _ _ => ⟨rfl, rfl, .shldImm8 _ _ _, rfl⟩

theorem witness_BitImmediateResult : State.reset.closed = true ∧
    BitImmForm .bt (.btRmvImm8 (.reg .eax) 16) (.reg .eax) 16 ∧
      BitImmForm .btc (.btcRmvImm8 (.reg .eax) 15) (.reg .eax) 15 ∧
    ∀ op : BitOp, locate State.reset.vWidth (.reg .eax) op.writes State.reset = .ok (.reg .eax) State.reset :=
  ⟨rfl, .bt _ _, .btc _ _, fun _ => rfl⟩

/-- A register operand, and a bit 16 below a memory operand. -/
theorem witness_BitRegisterResult : State.reset.closed = true ∧
    BitRegForm .bt (.btRmvRv (.reg .eax) .ecx) (.reg .eax) .ecx ∧
    BitPlace State.reset State.reset.vWidth false (State.reset.regs.read State.reset.vWidth .ecx) (.reg .eax) (.reg .eax) State.reset ∧
    BitRegForm .bts (.btsRmvRv (.mem (.mem16 none 2)) .ecx) (.mem (.mem16 none 2)) .ecx ∧
    (let s := real.gpr (ecx := 0xFFF0)
     s.closed = true ∧
     BitPlace s s.vWidth true (s.regs.read s.vWidth .ecx) (.mem (.mem16 none 2)) (.mem [0, 1]) s) :=
  ⟨rfl, .bt _ _, .reg _, .bts _ _, rfl, .mem _ _ _ rfl⟩

/-- The lowest 1 bit of DX after reset (0308H) is 3, the highest 9; BX is 0. -/
theorem witness_BitScanFindsIndex : State.reset.closed = true ∧ State.reset.vWidth = .w16 ∧
    locate .w16 (.reg .edx) false State.reset = .ok (.reg .edx) State.reset ∧
    (let a := State.reset.placeValue .w16 (.reg .edx)
     a.getLsbD 3 = true ∧ (∀ j < 3, a.getLsbD j = false) ∧ a.getLsbD 9 = true ∧ ∀ j < 16, 9 < j → a.getLsbD j = false) ∧
    locate .w16 (.reg .ebx) false State.reset = .ok (.reg .ebx) State.reset ∧
    State.reset.placeValue .w16 (.reg .ebx) = 0 :=
  ⟨rfl, rfl, rfl, by decide, rfl, rfl⟩

theorem witness_MoveToRmStores : State.reset.closed = true ∧
    locate .w8 (.mem (.mem16 (some .bxsi) 8)) true State.reset = .ok (.mem [8]) State.reset ∧
    MoveForm State.reset (.movRm8Imm8 (.mem (.mem16 (some .bxsi) 8)) 7) .w8 (.mem (.mem16 (some .bxsi) 8)) 7 ∧
    CondSet (.mem (.mem16 (some .bxsi) 8)) (.setno (.mem (.mem16 (some .bxsi) 8))) .no :=
  ⟨rfl, rfl, .rm8Imm8 _ _, .no⟩

theorem witness_LoadFromRmWritesRegister : State.reset.closed = true ∧
    LoadForm State.reset (.movsxRvRm8 .eax (.reg .edx)) .w8 (.reg .edx) .eax .w16 (·.signExtend 16) ∧
    locate .w8 (.reg .edx) false State.reset = .ok (.reg .edx) State.reset :=
  ⟨rfl, .sign8 _ _, rfl⟩

theorem witness_DirectOffsetMovesAccumulator : State.reset.closed = true ∧ MoffsForm State.reset (.movMoffs8Al 0xFFFF) true .w8 0xFFFF ∧
    segLocate (State.reset.segFor .ds) (State.reset.asWrap 0xFFFF) 1 true State.reset = .ok [0xFFFF] State.reset ∧
    MoffsForm State.reset (.movEaxMoffsv 0xFFFE) false .w16 0xFFFE ∧
    segLocate (State.reset.segFor .ds) (State.reset.asWrap 0xFFFE) 2 false State.reset = .ok [0xFFFE,
      0xFFFF] State.reset ∧
    segLocate (State.reset.segFor .ds)
      (State.reset.asWrap (State.reset.regs.ebx + (State.reset.regs.read .w8 .eax).setWidth 32)) 1 false State.reset = .ok [0] State.reset :=
  ⟨rfl, .toAl _, rfl, .eax _, rfl, rfl⟩

theorem witness_RegisterInstructionsComplete : State.reset.closed = true ∧ ∃ g f, RegisterForm State.reset .sahf g f :=
  ⟨rfl, _, _, .sahf _ rfl⟩

theorem witness_ExchangeSwapsOperands : State.reset.closed = true ∧
    ExchangeForm State.reset (.xchgRm8R8 (.reg .esp) .eax) .w8 (.reg .esp) .eax ∧
    locate .w8 (.reg .esp) true State.reset = .ok (.reg .esp) State.reset ∧
    ExchangeForm State.reset (.xchgRm8R8 (.mem (.mem16 none 3)) .eax) .w8 (.mem (.mem16 none 3)) .eax ∧
    locate .w8 (.mem (.mem16 none 3)) true State.reset = .ok (.mem [3]) State.reset ∧
    ExchangeForm contested (.xchgRm8R8 (.mem (.mem16 none 3)) .eax) .w8 (.mem (.mem16 none 3)) .eax ∧
    locate .w8 (.mem (.mem16 none 3)) true contested = .ok (.mem [3]) contested ∧ contested.map = [] ∧
    contested.dec.held = false :=
  ⟨rfl, .rm8R8 _ _, rfl, .rm8R8 _ _, rfl, .rm8R8 _ _, rfl, rfl, rfl⟩

/-- CPL 3 with IOPL 3 may, with IOPL 2 not. -/
theorem witness_InterruptFlagChecked : ∀ iopl : BitVec 2,
    let s : State := { flat with cpl := 3, flags := { flat.flags with iopl := iopl } }
    s.closed = true ∧ s.cr0.pe = true ∧ (s.cpl.toNat ≤ s.flags.iopl.toNat ↔ iopl = 3) := by
  decide

theorem witness_StoreSelectorWritesSelector : State.reset.closed = true ∧
    (∃ good, SelectorForm State.reset (.smsw (.mem (.mem16 none 0))) (.mem (.mem16 none 0)) good 1) ∧
    locate .w16 (.mem (.mem16 none 0)) true { State.reset with free := State.reset.free + 1 } =
      .ok (.mem [0, 1]) { State.reset with free := State.reset.free + 1 } ∧
    flat.closed = true ∧ flat.os32 = true ∧ (∃ good, SelectorForm flat (.str (.reg .eax)) (.reg .eax) good 0) ∧
    locate .w16 (.reg .eax) true { flat with free := flat.free + 0 } = .ok (.reg .eax) flat :=
  ⟨rfl, ⟨_, .smsw _⟩, rfl, rfl, rfl, ⟨_, .str _ rfl⟩, rfl⟩

theorem witness_PushStoresItsOperand : stacked.closed = true ∧ PushForm stacked (.pushSimm8 0xFF) .w16 (fun _ => 0xFFFF) stacked ∧
    segLocate .ss (stacked.stackWrap (stacked.stackPtr - BitVec.ofNat 32 2)) 2 true stacked = .ok [0xFFE,
      0xFFF] stacked ∧
    PushSregForm .pushFs .fs ∧
    segLocate .ss (stacked.stackWrap (stacked.stackPtr - BitVec.ofNat 32 (itemBytes stacked.os32))) (itemBytes stacked.os32) true
      { stacked with free := stacked.free + stacked.os32.toNat } = .ok [0xFFE, 0xFFF] stacked ∧
    virtual.closed = true ∧ virtual.flags.vm = true ∧ virtual.flags.iopl ≠ 3 :=
  ⟨rfl, .simm8 _, rfl, .fs, rfl, rfl, rfl, by decide⟩

theorem witness_PopWritesItsDestination : stacked.closed = true ∧
    segLocate .ss stacked.stackPtr stacked.vWidth.bytes false stacked = .ok [0x1000, 0x1001] stacked ∧
    locate stacked.vWidth (.reg .eax) true { stacked with regs := stacked.moved (BitVec.ofNat 32 stacked.vWidth.bytes) } =
      .ok (.reg .eax) { stacked with regs := stacked.moved (BitVec.ofNat 32 stacked.vWidth.bytes) } ∧
    stacked.flags.vm = false ∧ virtual.closed = true ∧ virtual.flags.vm = true ∧ virtual.flags.iopl ≠ 3 :=
  ⟨rfl, rfl, rfl, rfl, rfl, rfl, by decide⟩

theorem witness_PushPopAllMoveEveryRegister : stacked.closed = true ∧
    locatePushes stacked.vWidth.bytes 8 1 stacked = .ok [[0xFFE, 0xFFF], [0xFFC, 0xFFD], [0xFFA, 0xFFB], [0xFF8, 0xFF9],
      [0xFF6, 0xFF7], [0xFF4, 0xFF5], [0xFF2, 0xFF3], [0xFF0, 0xFF1]] stacked ∧
    locateItems stacked.vWidth.bytes 8 0 stacked = .ok [[0x1000, 0x1001], [0x1002, 0x1003], [0x1004, 0x1005],
      [0x1006, 0x1007], [0x1008, 0x1009], [0x100A, 0x100B], [0x100C, 0x100D], [0x100E, 0x100F]] stacked :=
  ⟨rfl, rfl, rfl⟩

/-- 32-bit flat with a GDT at 800H: 08H code, 10H data, 18H data accessed, 20H data not present, 28H available TSS, 30H
LDT, 38H code accessed; EAX names the data segment. -/
def tables : State :=
  ({ flat.gpr (eax := 0x10) (esp := 0x1000) with gdtr := ⟨0x800, 0x3F⟩ } : State).put 0x808
    [0xFF, 0xFF, 0, 0, 0, 0x9A, 0xCF, 0, 0xFF, 0xFF, 0, 0, 0, 0x92, 0xCF, 0, 0xFF, 0xFF, 0, 0, 0, 0x93, 0xCF, 0,
     0xFF, 0xFF, 0, 0, 0, 0x12, 0xCF, 0, 0x67, 0, 0, 0x30, 0, 0x89, 0, 0, 0x0F, 0, 0, 0x40, 0, 0x82, 0, 0,
     0xFF, 0xFF, 0, 0, 0, 0x9B, 0xCF, 0]

theorem witness_LoadSegmentOutsideProtectedMode : stacked.closed = true ∧ stacked.protMode = false ∧
    SregLoad stacked (.movSregRm16 .ss (.reg .esp)) .ss 0x1000 stacked (fun _ => stacked.regs) true ∧
    (∃ g, SregLoad stacked .popEs .es 0 stacked g false) :=
  ⟨rfl, rfl, .mov .ss (.reg .esp) (.reg .esp) stacked (by decide) rfl, _, .pop _ .es [0x1000, 0x1001] stacked .es rfl⟩

theorem tables_code : findDesc 8 .gp tables = .ok (0x808, 0x00CF9A000000FFFF) tables := rfl

theorem tables_data : findDesc 0x10 .gp tables = .ok (0x810, 0x00CF92000000FFFF) tables := rfl

theorem tables_accessed : findDesc 0x18 .gp tables = .ok (0x818, 0x00CF93000000FFFF) tables := rfl

theorem tables_absent : findDesc 0x20 .gp tables = .ok (0x820, 0x00CF12000000FFFF) tables := rfl

theorem tables_tss : findDesc 0x28 .gp tables = .ok (0x828, 0x0000890030000067) tables := rfl

theorem tables_ldt : findDesc 0x30 .gp tables = .ok (0x830, 0x000082004000000F) tables := rfl

theorem tables_conforming : findDesc 0x38 .gp tables = .ok (0x838, 0x00CF9B000000FFFF) tables := rfl

/-- Selectors 0 to 3 are null; EBX holds one, EAX names the data segment, whose A bit is then set; 20H is not present,
28H no segment; 38H is the last inside the GDT and 40H the first outside. -/
theorem witness_LoadSegmentChecksDescriptor : tables.closed = true ∧ tables.protMode = true ∧
    (∃ g, SregLoad tables (.movSregRm16 .ds (.reg .ebx)) .ds 0 tables g false) ∧
    (∃ g, SregLoad tables (.movSregRm16 .ss (.reg .ebx)) .ss 0 tables g true) ∧
    (3 : Word).toNat < 4 ∧ ¬ (4 : Word).toNat < 4 ∧
    (let s := tables.gpr (eax := 0x40)
     s.closed = true ∧ s.protMode = true ∧ (∃ g, SregLoad s (.movSregRm16 .ds (.reg .eax)) .ds 0x40 s g false) ∧
       ¬ 8 * ((0x40 : Word).toNat / 8) + 7 ≤ s.gdtr.limit.toNat ∧ 8 * ((0x38 : Word).toNat / 8) + 7 ≤ s.gdtr.limit.toNat) ∧
    (∃ g, SregLoad tables (.movSregRm16 .ss (.reg .eax)) .ss 0x10 tables g true) ∧
    findDesc 0x10 .gp tables = .ok (0x810, 0x00CF92000000FFFF) tables ∧
    (let d : Descriptor := 0x00CF92000000FFFF
     (descS d && !descE d && descW d && descP d) = true ∧ descDpl d = tables.cpl) ∧
    descP 0x00CF12000000FFFF = false ∧ descS 0x0000890030000067 = false ∧
    Accessed 0x810 0x00CF92000000FFFF tables [0x815] (tables.mem.byteWith [0x815] 1) tables ∧
    Accessed 0x818 0x00CF93000000FFFF tables [] 0 tables :=
  ⟨rfl, rfl, ⟨_, .mov .ds (.reg .ebx) (.reg .ebx) tables (by decide) rfl⟩,
    ⟨_, .mov .ss (.reg .ebx) (.reg .ebx) tables (by decide) rfl⟩, by decide, by decide,
    ⟨rfl, rfl, ⟨_, .mov .ds (.reg .eax) (.reg .eax) _ (by decide) rfl⟩, by decide, by decide⟩,
    ⟨_, .mov .ss (.reg .eax) (.reg .eax) tables (by decide) rfl⟩, tables_data, ⟨rfl, rfl⟩, rfl, rfl,
      .now _ _ rfl rfl, .already rfl⟩

theorem witness_InOutRunsItsCycle : State.reset.closed = true ∧ PortForm State.reset (.inAlImm8 0xFF) true .w8 0xFF ∧
    PortForm State.reset .outDxEax false .w16 0x308 ∧ ioPermitted 0xFF 1 State.reset = .ok () State.reset ∧
    ioPermitted 0x308 2 State.reset = .ok () State.reset ∧
    PortForm State.reset (.inEaxImm8 0xFF) true .w16 0xFF ∧ ioPermitted 0xFF 2 State.reset = .ok () State.reset ∧
    ∀ k : PhysKind, (mapped k).masters = [] ∧ (mapped k).kindAt 3 = k ∧ ∀ write,
      locate .w8 (.mem (.mem16 none 3)) write (mapped k) = .ok (.mem [3]) (mapped k) :=
  ⟨rfl, .inAlImm8 _, .outDxEax, rfl, rfl, .inEaxImm8 _, rfl, fun k => by
    cases k <;> exact ⟨rfl, rfl, fun write => by cases write <;> exact answers (by decide +kernel)⟩⟩

/-- The I/O bitmap of example W5, at CPL 3 with IOPL 0. -/
def bitmapped : State :=
  (({ flat with cpl := 3, tr := { sel := 0x28, base := 0x3000, limit := 0x88, is386 := true } } : State).put 0x3066
    [0x68]).put 0x3088 [0xFF]

/-- Port 60H is free, port FEH with four bytes reaches the terminator, port 100H lies beyond the limit. -/
theorem witness_IoPermissionBitmapChecked :
    (State.reset.cr0.pe = false) ∧ bitmapped.closed = true ∧ bitmapped.cr0.pe = true ∧ bitmapped.cr0.pg = false ∧
    ¬ bitmapped.cpl.toNat ≤ bitmapped.flags.iopl.toNat ∧ bitmapped.tr.is386 = true ∧ 0x67 ≤ bitmapped.tr.limit.toNat ∧
    (let word := fun k => bitmapped.mem.readAt (addrRun (bitmapped.tr.base + BitVec.ofNat 32 k) 2)
     let at_ := fun port => word 0x66 + port / 8
     at_ 0xFE + 1 ≤ bitmapped.tr.limit.toNat ∧ ¬ at_ 0x100 + 1 ≤ bitmapped.tr.limit.toNat ∧
     (∀ k < 1, (word (at_ 0x60)).testBit (0x60 % 8 + k) = false) ∧
     ∃ k < 4, (word (at_ 0xFE)).testBit (0xFE % 8 + k) = true) :=
  ⟨rfl, rfl, rfl, rfl, by decide, rfl, by decide, by decide, by decide, by decide, 2, by decide, by decide⟩

/-- REP MOVSB from 0 to 8 in Real Mode. -/
def repeating (count : Dword) : State :=
  { real.gpr (ecx := count) (edi := 8) with dec := { InProgress.empty with rep := some .repe } }

/-- A repeat with a count of 0, and with counts 1 and 2 an element. -/
theorem witness_StringIterationMovesData : StringForm (repeating 0) .movsb .movs .w8 ∧ (repeating 0).dec.rep = some .repe ∧
    (∀ count : Dword, (repeating count).closed = true) ∧
    (∃ g, Element (repeating 1) .w8 .movs g (repeating 1).flags (repeating 1) [8] 0) ∧
    (∃ g, Element (repeating 2) .w8 .movs g (repeating 2).flags (repeating 2) [8] 0) ∧
    (repeating 0).countOf (repeating 0).regs = 0 ∧ (repeating 1).countOf (repeating 1).regs = 1 ∧
    (repeating 2).countOf (repeating 2).regs = 2 ∧ real.dec.rep = none ∧
    (∃ g s' x, Element stacked .w16 .ins g stacked.flags s' [0, 1] x) ∧
    (∃ g s', Element stacked .w16 .outs g stacked.flags s' [] 0) :=
  ⟨.movsb, rfl, fun _ => rfl, ⟨_, .movs [0] [8] (repeating 1) (repeating 1) rfl rfl⟩,
    ⟨_, .movs [0] [8] (repeating 2) (repeating 2) rfl rfl⟩, rfl, rfl, rfl, rfl,
    ⟨_, _, _, .ins 0 [0, 1] stacked stacked _ _ rfl rfl rfl rfl⟩, ⟨_, _, .outs 0 [0, 1] stacked stacked rfl rfl rfl⟩⟩

/-- A jump to the limit of CS and one beyond it, and a condition that fails. -/
theorem witness_RelativeBranchesGoToTarget :
    real.closed = true ∧ BranchForm real (.jmpRelv 0xFEFF) true 0xFEFF real.regs ∧
    (((real.nextEip + 0xFEFF).setWidth real.vWidth.bits).setWidth 32 : Dword) = real.segs.cs.limit ∧
    BranchForm real (.joRel8 2) false 2 real.regs ∧
    (let s : State := { real with segs := { real.segs with cs := { real.segs.cs with limit := 0x101 } } }
     BranchForm s (.jmpRel8 2) true 2 s.regs ∧
     s.segs.cs.limit < ((s.nextEip + 2).setWidth s.vWidth.bits).setWidth 32) :=
  ⟨rfl, .jmpv _, rfl, .cond _ .o _ (.o8 2), .jmp8 _, by decide⟩

theorem witness_NearTransfersGoToTarget : stacked.closed = true ∧
    locate stacked.vWidth (.reg .esp) false stacked = .ok (.reg .esp) stacked ∧
    ((stacked.placeValue stacked.vWidth (.reg .esp)).setWidth 32 : Dword) ≤ stacked.segs.cs.limit ∧
    CallForm stacked (.callRelv 0xFEFF) 0xFFFF stacked ∧
    segLocate .ss (stacked.stackWrap (stacked.stackPtr - BitVec.ofNat 32 stacked.vWidth.bytes)) stacked.vWidth.bytes true
      stacked = .ok [0xFFE, 0xFFF] stacked ∧
    RetForm (.retNearImm16 4) 4 ∧
    segLocate .ss stacked.stackPtr stacked.vWidth.bytes false stacked = .ok [0x1000, 0x1001] stacked ∧
    (let s : State := { stacked with segs := { stacked.segs with cs := { stacked.segs.cs with limit := 0x101 } } }
     CallForm s (.callRelv 2) 0x102 s ∧ s.segs.cs.limit < 0x102) :=
  ⟨rfl, rfl, by decide, .rel _, rfl, .imm _, rfl, .rel _, by decide⟩

theorem witness_FarTransfersOutsideProtectedMode : stacked.closed = true ∧ stacked.protMode = false ∧
    FarForm stacked .jmp (.jmpPtr 0xFFFF 0x2000) 0x2000 0xFFFF stacked ∧ (0xFFFF : Dword) ≤ stacked.segs.cs.limit ∧
    FarForm stacked .call (.callPtr 0xFFFF 0x2000) 0x2000 0xFFFF stacked ∧
    locatePushes 2 2 1 { stacked with free := stacked.free + stacked.os32.toNat } =
      .ok [[0xFFE, 0xFFF], [0xFFC, 0xFFD]] stacked ∧
    FarRetForm .retFar 0 ∧ segCheck stacked.segs.ss (.ss 0) stacked.stackPtr (2 * 2) false = none ∧
    locateItems 2 2 0 stacked = .ok [[0x1000, 0x1001], [0x1002, 0x1003]] stacked ∧ stacked.mem.readAt [0x1000, 0x1001] = 0 ∧
    segCheck real.segs.ss (.ss 0) (real.gpr (esp := 0xFFFD)).stackPtr (2 * 2) false = some (.ss 0) ∧
    (let s : State := { stacked with segs := { stacked.segs with cs := { stacked.segs.cs with limit := 0x101 } } }
     FarForm s .jmp (.jmpPtr 0x102 0) 0 0x102 s ∧ s.segs.cs.limit < 0x102) :=
  ⟨rfl, rfl, .jmp _ _, by decide, .call _ _, rfl, .plain, rfl, rfl, rfl, rfl, .jmp _ _, by decide⟩

/-- A frame for IRET at 1000H: EIP 5, CS 38H and an image of EFLAGS with the bits 15..8 and 23..16 given. -/
def framed (high low : Byte) : State := tables.put 0x1000 [5, 0, 0, 0, 0x38, 0, 0, 0, 2, low, high]

/-- Where its three items lie. -/
def frameAt : List (List Dword) :=
  [[0x1000, 0x1001, 0x1002, 0x1003], [0x1004, 0x1005, 0x1006, 0x1007], [0x1008, 0x1009, 0x100A, 0x100B]]

/-- A nested task of an 80286 TSS whose back link is the TSS of 28H, busy, with CS 38H and SS 18H. -/
def nested : State :=
  ((({ tables with tr := { sel := 0x30, base := 0x4000, limit := 0x2B, is386 := false }
                   flags := { tables.flags with nt := true } } : State).put 0x4000 [0x28]).put 0x82D [0x8B]).put 0x304C
    [0x38, 0, 0, 0, 0x18]

theorem witness_InterruptReturnRestoresFrame :
    (stacked.closed = true ∧ stacked.protMode = false ∧ stacked.flags.vm = false ∧
      segCheck stacked.segs.ss (.ss 0) stacked.stackPtr 6 false = none ∧
      locateItems 2 3 0 stacked = .ok [[0x1000, 0x1001], [0x1002, 0x1003], [0x1004, 0x1005]] stacked ∧
      BitVec.ofNat 32 (stacked.mem.readAt [0x1000, 0x1001]) ≤ stacked.segs.cs.limit) ∧
    (let s := real.gpr (esp := 0xFFFB)
     s.closed = true ∧ s.protMode = false ∧ segCheck s.segs.ss (.ss 0) s.stackPtr 6 false = some (.ss 0)) ∧
    (virtual.closed = true ∧ virtual.flags.vm = true ∧ virtual.flags.iopl ≠ 3) ∧
    (let s := framed 0 2
     s.closed = true ∧ s.protMode = true ∧ s.flags.nt = false ∧ s.os32 = true ∧
       segCheck s.segs.ss (.ss 0) s.stackPtr 12 false = none ∧ 
       locateItems 4 3 0 s = .ok frameAt s ∧ frameAt.map s.mem.readAt = [5, 0x38, 0x202] ∧
       (0x202 : Dword).getLsbD 17 = false ∧
       findDesc 0x38 .gp s = .ok (0x838, 0x00CF9B000000FFFF) s ∧ Accessed 0x838 0x00CF9B000000FFFF s [] 0 s) ∧
    (let s := framed 2 0
     s.closed = true ∧ s.protMode = true ∧ s.flags.nt = false ∧ s.os32 = true ∧ s.cpl = 0 ∧
       segCheck s.segs.ss (.ss 0) s.stackPtr 36 false = none ∧ 
       locateItems 4 3 0 s = .ok frameAt s ∧ frameAt.map s.mem.readAt = [5, 0x38, 0x20002] ∧
       (0x20002 : Dword).getLsbD 17 = true ∧
       locateItems 4 6 12 s = .ok [[0x100C, 0x100D, 0x100E, 0x100F], [0x1010, 0x1011, 0x1012, 0x1013],
         [0x1014, 0x1015, 0x1016, 0x1017], [0x1018, 0x1019, 0x101A, 0x101B], [0x101C, 0x101D, 0x101E, 0x101F],
         [0x1020, 0x1021, 0x1022, 0x1023]] s) ∧
    (let s := tables.gpr (esp := 0xFFFFFFF8)
     segCheck s.segs.ss (.ss 0) s.stackPtr 12 false = some (.ss 0)) ∧
    nested.closed = true ∧ nested.protMode = true ∧ nested.flags.nt = true ∧
    sysRead16 nested.tr.base { nested with nmiInService := false } = .ok 0x28 nested ∧
    findDesc 0x28 .ts nested = .ok (0x828, 0x00008B0030000067) nested ∧
    (∃ a t, taskSwitch 0x28 0x00008B0030000067 .iret { nested with eip := nested.nextEip } = .ok a t) :=
  ⟨⟨rfl, rfl, rfl, rfl, rfl, by decide⟩, ⟨rfl, rfl, rfl⟩, ⟨rfl, rfl, by decide⟩,
    ⟨rfl, rfl, rfl, rfl, rfl, rfl, rfl, rfl, rfl, .already rfl⟩,
    ⟨rfl, rfl, rfl, rfl, rfl, rfl, rfl, rfl, rfl, rfl⟩, rfl, rfl, rfl, rfl, rfl, rfl,
    answers_some (by decide +kernel)⟩

/-- The same tables with a call gate 40H to 38H:1234H. -/
def called : State := ({ tables with gdtr := ⟨0x800, 0x47⟩ } : State).put 0x840 [0x34, 0x12, 0x38, 0, 0, 0x8C]

/-- To the code segments 08H and 38H, directly and through a gate, and back; 10H is data, and CPL 3 is not allowed. -/
theorem witness_FarTransfersCheckDescriptor : tables.closed = true ∧ tables.protMode = true ∧
    FarForm tables .jmp (.jmpPtr 0xFFFFFFFF 8) 8 0xFFFFFFFF tables ∧
    findDesc 8 .gp tables = .ok (0x808, 0x00CF9A000000FFFF) tables ∧
    (let d : Descriptor := 0x00CF9A000000FFFF
     descS d = true ∧ descE d = true ∧ descC d = false ∧ descDpl d = tables.cpl ∧ descP d = true ∧
       descLimit d = 0xFFFFFFFF) ∧
    Accessed 0x808 0x00CF9A000000FFFF tables [0x80D] (tables.mem.byteWith [0x80D] 1) tables ∧
    Accessed 0x838 0x00CF9B000000FFFF tables [] 0 tables ∧
    FarForm tables .call (.callPtr 5 0x38) 0x38 5 tables ∧
    locatePushes 4 2 1 tables = .ok [[0xFFC, 0xFFD, 0xFFE, 0xFFF], [0xFF8, 0xFF9, 0xFFA, 0xFFB]] tables ∧
    (let d : Descriptor := 0x00CF92000000FFFF
     descS d = true ∧ descE d = false) ∧
    ({ tables with cpl := 3 } : State).protMode = true ∧ descDpl 0x00CF9A000000FFFF ≠ 3 ∧
    (let d : Descriptor := 0x00008C0000381234
     called.closed = true ∧ called.protMode = true ∧ FarForm called .call (.callPtr 5 0x40) 0x40 5 called ∧
       findDesc 0x40 .gp called = .ok (0x840, d) called ∧ descS d = false ∧ descType d = 12 ∧ descP d = true ∧
       descDpl d = called.cpl ∧ d.extractLsb' 16 16 = 0x38 ∧
       findDesc 0x38 .gp called = .ok (0x838, 0x00CF9B000000FFFF) called) ∧
    (let s := framed 0 2
     FarRetForm .retFar 0 ∧ segCheck s.segs.ss (.ss 0) s.stackPtr 8 false = none ∧
       locateItems 4 2 0 s = .ok (frameAt.take 2) s ∧ (frameAt.take 2).map s.mem.readAt = [5, 0x38]) :=
  ⟨rfl, rfl, .jmp _ _, tables_code, ⟨rfl, rfl, rfl, rfl, rfl, rfl⟩, .now _ _ rfl rfl, .already rfl, .call _ _, rfl,
    ⟨rfl, rfl⟩, rfl, by decide, ⟨rfl, rfl, .call _ _, rfl, rfl, rfl, rfl, rfl, rfl, rfl⟩, .plain, rfl, rfl, rfl⟩

/-- An interrupt gate for exception 13 and a trap gate for exception 14, to the code segment 38H. -/
def gated : State :=
  ({ tables with idtr := ⟨0x2000, 0x77⟩ } : State).put 0x2068
    [0x34, 0x12, 0x38, 0, 0, 0x8E, 0, 0, 0x34, 0x12, 0x38, 0, 0, 0x8F]

/-- A gate to 38H and the segment are found in a state where both can be read. -/
theorem found {s : State} {n : Nat} {g : Descriptor} (hs : s.cpl = 0) (hn : 8 * n + 7 ≤ s.idtr.limit.toNat)
    (h1 : sysRead (s.idtr.base + BitVec.ofNat 32 (8 * n)) 8 s = .ok g.toNat s)
    (h2 : findDesc 0x38 .gp s = .ok (0x838, 0x00CF9B000000FFFF) s)
    (hg : g ∈ [(0x00008E0000381234 : Descriptor), 0x00008F0000381234]) :
    GateFound s n g 0x838 0x00CF9B000000FFFF s := by
  simp only [List.mem_cons, List.not_mem_nil, or_false] at hg
  rcases hg with rfl | rfl <;>
    exact ⟨hn, ⟨_, _, h1, rfl, h2⟩, rfl, rfl, by decide, ⟨rfl, rfl⟩, rfl, .inr ⟨rfl, hs.symm⟩, by decide⟩

theorem witness_SoftwareInterruptsAreDelivered : stacked.closed = true ∧ stacked.inReal ∧
    InterruptForm stacked (.intImm8 0xFF) 0xFF ∧
    stacked.canEnter 0xFF ∧ stacked.flags.of = false ∧
    (let s : State := { stacked with idtr := ⟨0, 0x3FE⟩ }
     InterruptForm s (.intImm8 0xFF) 0xFF ∧ s.idtr.limit.toNat < 4 * 0xFF + 3) ∧
    (let s : State := { stacked with idtr := ⟨0, 0x22⟩ }
     InterruptForm s (.intImm8 8) 8 ∧ s.idtr.limit.toNat < 4 * 8 + 3) ∧
    (let s := real.gpr (esp := 5)
     s.inReal ∧ 4 * 3 + 3 ≤ s.idtr.limit.toNat ∧ s.roomFault 2 3 = some (.ss 0)) ∧
    gated.closed = true ∧ gated.protMode = true ∧ InterruptForm gated (.intImm8 14) 14 ∧
    InterruptForm gated (.intImm8 15) 15 ∧ gated.idtr.limit.toNat < 8 * 15 + 7 ∧
    (GateFound gated 14 0x00008F0000381234 0x838 0x00CF9B000000FFFF gated) ∧ descDpl 0x00008F0000381234 = gated.cpl ∧
    locatePushes 4 3 1 { gated with free := gated.free + 1 } =
      .ok [[0xFFC, 0xFFD, 0xFFE, 0xFFF], [0xFF8, 0xFF9, 0xFFA, 0xFFB], [0xFF4, 0xFF5, 0xFF6, 0xFF7]]
        { gated with free := gated.free + 1 } ∧
    Accessed 0x838 0x00CF9B000000FFFF { gated with free := gated.free + 1 } [] 0 { gated with free := gated.free + 1 } ∧
    (sysRead (gated.idtr.base + BitVec.ofNat 32 (8 * 3)) 8 gated = .ok 0 gated ∧ InterruptForm gated .int3 3 ∧
      descType 0 ∉ [5, 6, 7, 14, 15]) ∧
    (let s : State := { gated with cpl := 3 }
     s.protMode = true ∧ sysRead (s.idtr.base + BitVec.ofNat 32 (8 * 14)) 8 s = .ok 0x00008F0000381234 s ∧
       (descDpl 0x00008F0000381234).toNat < s.cpl.toNat) ∧
    (let s := gated.put 0x2075 [0x0F]
     s.protMode = true ∧ sysRead (s.idtr.base + BitVec.ofNat 32 (8 * 14)) 8 s = .ok 0x00000F0000381234 s ∧
       descP 0x00000F0000381234 = false) ∧
    virtual.closed = true ∧ virtual.flags.vm = true ∧ virtual.flags.iopl ≠ 3 := by
  refine ⟨rfl, ⟨rfl, rfl, rfl⟩, .int _, ⟨by decide, rfl⟩, rfl, ⟨.int _, by decide⟩, ⟨.int _, by decide⟩,
    ⟨⟨rfl, rfl, rfl⟩, by decide, rfl⟩, rfl, rfl, .int _, .int _, by decide, 
    found rfl (by decide) (answers (by decide +kernel)) (answers (by decide +kernel)) (by decide), rfl,
    answers (by decide +kernel),
    .already rfl, ⟨rfl, .int3, by decide⟩, ⟨rfl, rfl, by decide⟩, ⟨rfl, rfl, rfl⟩, rfl, rfl, by decide⟩

theorem witness_RealModeDeliverySavesAndJumps : stacked.inReal ∧ stacked.closed = true ∧ Exn.de.vector ≠ 14 ∧
    (stacked.afterFault stacked .de).idle.canEnter 0 ∧
    (let s : State := { stacked with idtr := ⟨0, 0x23⟩ }
     s.inReal ∧ s.idtr.limit.toNat < 4 * Exn.mf.vector + 3 ∧ (s.afterFault s .mf).idle.canEnter 8) ∧
    (let s : State := { stacked with idtr := ⟨0, 0x22⟩ }
     s.inReal ∧ s.idtr.limit.toNat < 4 * Exn.mf.vector + 3 ∧ s.idtr.limit.toNat < 35) := by
  refine ⟨⟨rfl, rfl, rfl⟩, rfl, by decide, ⟨by decide, rfl⟩, ⟨⟨rfl, rfl, rfl⟩, by decide, by decide, rfl⟩,
    ⟨rfl, rfl, rfl⟩, by decide, by decide⟩

/-- A general protection fault and a page fault. -/
theorem witness_ProtectedDeliverySavesAndJumps : gated.protMode = true ∧ gated.closed = true ∧
    (let x := (gated.afterFault gated (.gp 0)).idle
     GateFound { x with free := x.free + (Exn.gp 0).isPage.toNat } (Exn.gp 0).vector 0x00008E0000381234 0x838
       0x00CF9B000000FFFF { x with free := x.free + (Exn.gp 0).isPage.toNat }) ∧
    (let x := (gated.afterFault gated (.pf 0x5000 false true true)).idle
     GateFound { x with free := x.free + (Exn.pf 0x5000 false true true).isPage.toNat }
       (Exn.pf 0x5000 false true true).vector 0x00008F0000381234 0x838
       0x00CF9B000000FFFF { x with free := x.free + (Exn.pf 0x5000 false true true).isPage.toNat }) ∧
    (∀ e ∈ [Exn.gp 0, .pf 0x5000 false true true], 3 + (e.code 0).toList.length = 4) ∧
    (∀ k : Fin 4, locatePushes 4 4 1 { gated with free := k } =
      .ok [[0xFFC, 0xFFD, 0xFFE, 0xFFF], [0xFF8, 0xFF9, 0xFFA, 0xFFB], [0xFF4, 0xFF5, 0xFF6, 0xFF7],
        [0xFF0, 0xFF1, 0xFF2, 0xFF3]] { gated with free := k }) ∧
    Accessed 0x838 0x00CF9B000000FFFF gated [] 0 gated := by
  refine ⟨rfl, rfl, found rfl (by decide) (answers (by decide +kernel)) (answers (by decide +kernel)) (by decide),
    found rfl (by decide) (answers (by decide +kernel)) (answers (by decide +kernel)) (by decide), by decide, ?_,
    .already rfl⟩
  intro k
  fin_cases k <;> exact answers (by decide +kernel)

/-- BOUND at and past its upper bound, ENTER at levels 0, 1 and 2, LEAVE. -/
theorem witness_BoundEnterLeaveComplete :
    (∀ x ∈ [(0 : Dword), 1],
      let s := (real.gpr (eax := x) (esp := 0x1000) (ebp := 0x800))
      s.closed = true ∧ locateEa (.mem16 none 0x10) 0 2 false s = .ok [0x10, 0x11] s ∧
      locateEa (.mem16 none 0x10) 2 2 false s = .ok [0x12, 0x13] s ∧ s.mem.readAt [0x10, 0x11] = 0 ∧
      s.mem.readAt [0x12, 0x13] = 0 ∧
      ((0 : Word).toInt ≤ (s.regs.read .w16 .eax).toInt ∧ (s.regs.read .w16 .eax).toInt ≤ (0 : Word).toInt ↔ x = 0)) ∧
    pushLocate 2 1 stacked = .ok [0xFFE, 0xFFF] stacked ∧ (0x20 : Byte).toNat % 32 = 0 ∧ (1 : Byte).toNat % 32 = 1 ∧
    locateDisplay 2 (1 - 1) 1 stacked = .ok [] stacked ∧ pushLocate 2 (1 + 1) stacked = .ok [0xFFC, 0xFFD] stacked ∧
    (2 : Byte).toNat % 32 = 2 ∧
    locateDisplay 2 (2 - 1) 1 stacked = .ok [([0xFFFE, 0xFFFF], [0xFFC, 0xFFD])] stacked ∧
    pushLocate 2 (2 + 1) stacked = .ok [0xFFA, 0xFFB] stacked ∧
    segLocate .ss (stacked.stackWrap stacked.regs.ebp) 2 false stacked = .ok [0, 1] stacked := by
  refine ⟨?_, rfl, rfl, rfl, rfl, rfl, rfl, rfl, rfl, rfl⟩
  simp only [List.mem_cons, List.not_mem_nil, or_false, forall_eq_or_imp, forall_eq]
  exact ⟨⟨rfl, rfl, rfl, rfl, rfl, by decide⟩, rfl, rfl, rfl, rfl, rfl, by decide⟩

theorem witness_TableRegistersLoadAndStore : State.reset.closed = true ∧ State.reset.mayRun ∧
    locateEa (.mem16 none 8) 0 2 true State.reset = .ok [8, 9] State.reset ∧
    locateEa (.mem16 none 8) 2 4 true State.reset = .ok [0xA, 0xB, 0xC, 0xD] State.reset ∧
    locateEa (.mem16 none 8) 0 2 false State.reset = .ok [8, 9] State.reset ∧
    locateEa (.mem16 none 8) 2 4 false State.reset = .ok [0xA, 0xB, 0xC, 0xD] State.reset :=
  ⟨rfl, .inl rfl, rfl, rfl, rfl, rfl⟩

/-- Null selectors, one of the LDT, and the LDT, TSS and data descriptors of the GDT. -/
theorem witness_LdtTaskRegistersLoadAndStore : tables.closed = true ∧ tables.protMode = true ∧ tables.cpl = 0 ∧
    locate .w16 (.reg .ebx) false tables = .ok (.reg .ebx) tables ∧ (3 : Word).toNat < 4 ∧
    4 ≤ (4 : Word).toNat ∧ (4 : Word).getLsbD 2 = true ∧ 4 ≤ (0x28 : Word).toNat ∧ (0x28 : Word).getLsbD 2 = false ∧
    (let s : State := { tables with regs := { tables.regs with eax := 0x28 } }
     locate .w16 (.reg .eax) false s = .ok (.reg .eax) s ∧ s.placeValue .w16 (.reg .eax) = 0x28 ∧
     findDesc 0x28 .gp s = .ok (0x828, 0x0000890030000067) s ∧ linLocate (0x828 + 5) 1 true true s = .ok [0x82D] s) ∧
    descS 0x0000890030000067 = false ∧ descType 0x0000890030000067 = 9 ∧ descP 0x0000890030000067 = true ∧
    descS 0x000082004000000F = false ∧ descType 0x000082004000000F = 2 ∧ descP 0x000082004000000F = true ∧
    descType 0x000002004000000F = 2 ∧ descP 0x000002004000000F = false ∧ descS 0x00CF92000000FFFF = true :=
  ⟨rfl, rfl, rfl, rfl, by decide, by decide, rfl, by decide, rfl, ⟨rfl, rfl, rfl, rfl⟩, rfl, rfl, rfl, rfl, rfl, rfl,
    rfl,
    rfl, rfl⟩

/-- ARPL with RPL 0 and 3; a null selector, one past the limit, and the last one inside it. -/
theorem witness_PointerTestsSetZero : tables.closed = true ∧ tables.protMode = true ∧
    locate .w16 (.reg .eax) true tables = .ok (.reg .eax) tables ∧
    locate .w16 (.reg .eax) false tables = .ok (.reg .eax) tables ∧
    tables.placeValue .w16 (.reg .eax) = 0x10 ∧ (0 : BitVec 2).toNat < (3 : BitVec 2).toNat ∧
    ((0x10 : Word).setWidth 2 : BitVec 2).toNat ≤ ((tables.regs.read .w16 .ebx).setWidth 2 : BitVec 2).toNat ∧
    (3 : Word).toNat < 4 ∧ 4 ≤ (0x38 : Word).toNat ∧ 8 * ((0x38 : Word).toNat / 8) + 7 ≤ tables.gdtr.limit.toNat ∧
    ¬ 8 * ((0x40 : Word).toNat / 8) + 7 ≤ tables.gdtr.limit.toNat ∧
    (∃ x, sysRead (tables.gdtr.base + BitVec.ofNat 32 (8 * ((0x10 : Word).toNat / 8))) 8 tables = .ok x tables) :=
  ⟨rfl, rfl, rfl, rfl, rfl, by decide, by decide, by decide, by decide, by decide, by decide, _, rfl⟩

theorem witness_SpecialRegistersReadAndWrite : State.reset.closed = true ∧ State.reset.mayRun ∧
    SpecialRead State.reset (.movR32Dr .eax 7) .eax 0 0xFFFF23FF ∧
    (∃ s', SpecialWrite State.reset (State.reset.regs.get .edx) .edx (.movCrR32 0 .edx) s') ∧
    (1 : BitVec 3) ∉ ([0, 2, 3] : List (BitVec 3)) ∧ (5 : BitVec 3) ∉ ([6, 7] : List (BitVec 3)) ∧
    State.reset.dr7.getLsbD 13 = false ∧
    (let s : State := { real.gpr (eax := 0x80000000) with dr7 := 0x2000 }
     s.closed = true ∧ s.mayRun ∧ s.dr7.getLsbD 13 = true ∧ (s.regs.get .eax).getLsbD 31 = true ∧
       (s.regs.get .eax).getLsbD 0 = false) :=
  ⟨rfl, .inl rfl, .dr7 _ rfl, ⟨_, .cr0 (.inl rfl)⟩, by decide, by decide, rfl, rfl, .inl rfl, rfl, rfl, rfl⟩

/-- TLB commands of TR6: a write, and lookups that find nothing, one entry and two. -/
theorem witness_MachineStatusWordMoves : State.reset.closed = true ∧ State.reset.mayRun ∧
    locate .w16 (.reg .edx) false State.reset = .ok (.reg .edx) State.reset ∧ State.reset.cr0.pg = false ∧
    (State.reset.regs.get .eax).getLsbD 0 = false ∧
    (let e : TlbEntry := { tag := 0, phys := 5, d := true, u := true, w := true }
     let s := real.gpr (eax := 0x7E1)
     let one : State := { s with tlb := s.tlb.set 2 (some e) }
     let two : State := { one with tlb := one.tlb.set 3 (some e) }
     s.closed = true ∧ s.mayRun ∧ (s.regs.get .eax).getLsbD 0 = true ∧ lookupHits s.tlb (s.regs.get .eax) = [] ∧
       lookupHits one.tlb (s.regs.get .eax) = [(2, e)] ∧ 1 < (lookupHits two.tlb (s.regs.get .eax)).length) ∧
    (let s : State := { flat with cr0 := { flat.cr0 with pg := true } }
     s.mayRun ∧ s.cr0.pg = true) :=
  ⟨rfl, .inl rfl, rfl, rfl, rfl, ⟨rfl, .inl rfl, rfl, rfl, rfl, by decide⟩, .inr rfl, rfl⟩

theorem witness_ProtectedModeBitStays : State.reset.closed = true ∧ State.reset.mayRun ∧ (State.reset.regs.get .edx).getLsbD 31 = false ∧
    locate .w16 (.reg .edx) false State.reset = .ok (.reg .edx) State.reset ∧
    (∃ t, exec .clc State.reset = .next t) :=
  ⟨rfl, .inl rfl, rfl, rfl, _, rfl⟩

theorem witness_PrivilegeTrapsRaise : ∀ cpl ∈ [(1 : BitVec 2), 3],
    let s : State := { flat with cpl := cpl }
    s.cr0.pe = true ∧ s.cpl ≠ 0 ∧ s.flags.vm = false ∧ Privileged .hlt := by
  simp only [List.mem_cons, List.not_mem_nil, or_false, forall_eq_or_imp, forall_eq]
  exact ⟨⟨rfl, by decide, rfl, .hlt⟩, rfl, by decide, rfl, .hlt⟩

theorem witness_ProtectedModeOnlyRaise : ProtectedOnly (.str (.reg .eax)) ∧ State.reset.cr0.pe = false ∧
    ({ flat with cpl := 3, flags := { flat.flags with vm := true } } : State).flags.vm = true :=
  ⟨.str _, rfl, rfl⟩

theorem witness_ProcessorControlCompletes : real.closed = true ∧ real.mayRun ∧ real.cr0.ts = false ∧ real.cr0.em = false ∧
    real.pins.busy = false ∧ real.pins.error = false ∧
    (let s : State := { real with cr0 := { real.cr0 with ts := true, mp := true } }
     s.closed = true ∧ s.cr0.ts = true ∧ s.cr0.mp = true) ∧
    ({ real with pins := { real.pins with busy := true } } : State).pins.busy = true ∧
    ({ real with pins := { real.pins with error := true } } : State).pins.error = true :=
  ⟨rfl, .inl rfl, rfl, rfl, rfl, rfl, ⟨rfl, rfl, rfl⟩, rfl, rfl⟩

theorem witness_PrefixesRecordThemselves :
    PrefixForm State.reset.dec .repne { State.reset.dec with rep := some .repne } := .repne

/-- The last dword of a 64K segment, one byte further, the first byte of an expand-down segment and the byte below it, a
write to a code segment, and an unusable register. -/
theorem witness_SegmentChecksRaise : 0 < 4 ∧
    (let seg := SegReg.real 0 0
     seg.valid = true ∧ seg.writable = true ∧ (∀ k < 4, (0xFFFC : Dword).toNat + k ≤ seg.limit.toNat) ∧
       ¬ ∀ k < 4, (0xFFFD : Dword).toNat + k ≤ seg.limit.toNat) ∧
    (let seg : SegReg := { SegReg.real 0 0 with limit := 0xFFF, expandDown := true }
     seg.valid = true ∧ (∀ k < 4, seg.limit.toNat < (0x1000 : Dword).toNat + k ∧ (0x1000 : Dword).toNat + k ≤ 0xFFFF) ∧
       ¬ ∀ k < 4, seg.limit.toNat < (0xFFF : Dword).toNat + k ∧ (0xFFF : Dword).toNat + k ≤ 0xFFFF) ∧
    (flatSeg true).valid = true ∧ (flatSeg true).writable = false ∧
    ({ flatSeg false with valid := false } : SegReg).valid = false := by
  decide

/-- A page directory at 0 and a page table at 1000H: page 0 read only, page 1 absent, page 2 for supervisors. -/
def paged : State :=
  (({ flat with cpl := 3, cr0 := { flat.cr0 with pg := true } } : State).put 0 [7, 0x10]).put 0x1000
    [5, 0, 0, 0, 0, 0, 0, 0, 3]

theorem witness_PageWalkTranslatesOrFaults : paged.closed = true ∧ paged.tlb.length = 32 ∧ paged.cr0.pg = true ∧
    (∀ page ∈ [(0 : BitVec 20), 1, 2], tlbMatches paged.tlb page = []) ∧ paged.cpl = 3 ∧
    BitVec.ofNat 32 (paged.mem.readAt (addrRun (paged.cr3 ++ (0 : BitVec 10) ++ 0#2) 4)) = 0x1007 ∧
    BitVec.ofNat 32 (paged.mem.readAt (addrRun 0x1000 4)) = 5 ∧
    BitVec.ofNat 32 (paged.mem.readAt (addrRun 0x1004 4)) = 0 ∧
    BitVec.ofNat 32 (paged.mem.readAt (addrRun 0x1008 4)) = 3 ∧
    (∀ d : Bool, let e : TlbEntry := { tag := 0, phys := 5, d := d, u := true, w := false }
      tlbMatches (paged.tlb.set 2 (some e)) 0 = [e]) := by
  refine ⟨rfl, rfl, rfl, ?_, rfl, rfl, rfl, rfl, rfl, fun d => by cases d <;> rfl⟩
  simp only [List.mem_cons, List.not_mem_nil, or_false, forall_eq_or_imp, forall_eq]
  exact ⟨rfl, rfl, rfl⟩

theorem reset_inv : Inv State.reset :=
  ⟨rfl, rfl, fun _ => ⟨rfl, rfl⟩, fun h => absurd h (by decide), fun h => absurd h (by decide), rfl⟩

theorem witness_InvariantKept : Inv State.reset ∧ ∃ t, step (State.reset.put 0xFFFFFFF0 [0xF8]) = .next t :=
  ⟨reset_inv, _, rfl⟩

theorem witness_DecodeEncodeAgree : (Instr.enter 0xFFFF 0xFF).wf true false = true ∧
    (Instr.addRmvImmv (.mem (.mem32 (some .esp) (some (.ebp, 3)) 0xFFFFFFFF)) 0xFFFF).wf false true = true := by
  decide

/-- CLC at the reset vector, and a prefix before it; the window of 15 bytes, and one cut by the limit of CS. -/
theorem witness_StepRunsDecoded :
    (let s := State.reset.put 0xFFFFFFF0 [0xF8]
     s.run = .running ∧ s.inputs = [] ∧ s.masters = [] ∧ s.map = [] ∧ s.pend = ⟨false, false, 0, 0⟩ ∧ bpEnabled s.dr7 = 0 ∧
       s.dec = InProgress.empty ∧ s.prefetch = [] ∧ s.nmiPending = false ∧ s.pins.intr = false ∧ s.cr0.pg = false ∧
       decode s.os32 s.as32 (fetchWindow { s with inhibit := false }) = .ok (.clc, List.replicate 14 0) ∧
       (fetchWindow { s with inhibit := false }).length = 15 ∧
       touchBytes 1 0 { s with inhibit := false } = .ok () { s with inhibit := false }) ∧
    (let s : State := { State.reset.put 0xFFFFFFFE [0x66, 0xF8] with eip := 0xFFFE }
     decode s.os32 s.as32 (fetchWindow { s with inhibit := false }) = .ok (.opSize, [0xF8]) ∧
       Instr.opSize.isPrefix = true ∧
       (fetchWindow { s with inhibit := false }).length = 2) :=
  ⟨⟨rfl, rfl, rfl, rfl, rfl, rfl, rfl, rfl, rfl, rfl, rfl, rfl, rfl, rfl⟩, rfl, rfl, rfl⟩

theorem witness_BoundaryEventsAreTaken :
    (∀ s ∈ [{ stacked with pend := { stacked.pend with bs := true } }, { stacked with nmiPending := true },
        { stacked with flags := { stacked.flags with ifl := true },
                       pins := { stacked.pins with intr := true, vector := 0xFF } },
        { stacked with run := .halted }, { real.gpr (esp := 6) with run := .shutdown, nmiPending := true }],
      s.cr0.pe = false ∧ s.cr0.pg = false ∧ s.flags.vm = false ∧ s.closed = true ∧ s.inputs = [] ∧
      s.inhibit = false ∧ bpEnabled s.dr7 = 0 ∧ s.dec = InProgress.empty ∧ s.pend.bt = false ∧ s.pend.data = 0 ∧
      4 * s.pins.vector.toNat + 3 ≤ s.idtr.limit.toNat ∧ s.roomFault 2 3 = none) ∧
    (let s : State := { real.gpr (esp := 5) with run := .shutdown, nmiPending := true }
     s.inReal ∧ s.closed = true ∧ 0x17 ≤ s.idtr.limit.toNat ∧ ¬ 5 < (s.regs.read .w16 .esp).toNat) ∧
    (let t : State := { stacked with dec := { InProgress.empty with hits := 3 } }
     t.dec.hits &&& bpEnabled t.dr7 = 0 ∧ t.dec.hits &&& bpEnabled ({ t with dr7 := 2 } : State).dr7 ≠ 0) ∧
    (let s : State := { stacked with dr7 := 0x00030202, pend := ⟨true, false, 1, 1⟩ }
     s.inReal ∧ s.closed = true ∧ s.inputs = [] ∧ s.run ≠ .shutdown ∧ s.inhibit = false ∧ s.dec = InProgress.empty ∧
       bpUndefined s.dr7 &&& bpEnabled s.dr7 = 0 ∧ s.executionMatches &&& bpEnabled s.dr7 = 0 ∧ s.pend.bt = false ∧
       s.pend.data ≠ 0 ∧ s.pend.data &&& ~~~s.pend.exact = 0 ∧ s.canEnter 1) := by
  refine ⟨?_, ⟨⟨rfl, rfl, rfl⟩, rfl, by decide, by decide⟩, ⟨by decide, by decide⟩, ⟨rfl, rfl, rfl⟩, rfl, rfl, by decide,
    rfl, rfl, by decide, by decide, rfl, by decide, by decide, by decide, rfl⟩
  simp only [List.mem_cons, List.not_mem_nil, or_false, forall_eq_or_imp, forall_eq]
  refine ⟨?_, ?_, ?_, ?_, ?_⟩ <;>
    exact ⟨rfl, rfl, rfl, rfl, rfl, rfl, rfl, rfl, rfl, rfl, by decide, rfl⟩

/-- A TSS at 3000H with CS 38H and SS 18H, entered from an 80286 TSS. -/
def tasked : State :=
  (({ tables with tr := { sel := 0x18, base := 0x4000, limit := 0x2B, is386 := false } } : State).put 0x3020
    [0x34, 0x12]).put 0x304C [0x38, 0, 0, 0, 0x18]

theorem witness_TaskSwitchCommits : tasked.closed = true ∧ tasked.cr0.pg = false ∧
    (∃ a t, taskSwitch 0x28 0x0000890030000067 .int tasked = .ok a t) ∧
    (let s := tasked.put 0x304C [8]
     s.closed = true ∧ s.cr0.pg = false ∧ (s.mem.read (s.typeByte 8).toNat).getLsbD 0 = false ∧
       ∃ a t, taskSwitch 0x28 0x0000890030000067 .int s = .ok a t) ∧
    ∃ a t, taskSwitch 0x28 0x00008B0030000067 .iret nested = .ok a t :=
  ⟨rfl, rfl, answers_some (by decide +kernel), ⟨rfl, rfl, rfl, answers_some (by decide +kernel)⟩,
    answers_some (by decide +kernel)⟩

end Sys2Proof.Machine
end

/-! CR0.PE (10_state.md R61): which operations of the machine leave it as it is, and from that the statement that only
MOV CR0 resets it and only MOV CR0 and LMSW set it. One rule per operation, in the order of the model's definitions;
the simp rules are those for the bodies of instructions. -/

namespace Sys2Proof.Machine

variable {α β : Type}

/-! What it is to leave PE alone. -/

/-- The state in which a meaning ends or stops short. -/
def M.last (x : M α) (s : State) : State :=
  match x s with
  | .ok _ t => t
  | .error _ t => t

/-- A meaning that leaves CR0.PE as it finds it, whether it completes or stops short. -/
def KeepsPe (x : M α) : Prop := ∀ s, (M.last x s).cr0.pe = s.cr0.pe

theorem M.last_of_ok {x : M α} {s t : State} {a : α} (h : x s = .ok a t) : M.last x s = t := by
  rw [M.last, h]

theorem M.last_of_error {x : M α} {s t : State} {e : Trap} (h : x s = .error e t) : M.last x s = t := by
  rw [M.last, h]

theorem KeepsPe.of_ok {x : M α} (hx : KeepsPe x) {s t : State} {a : α} (h : x s = .ok a t) : t.cr0.pe = s.cr0.pe :=
  M.last_of_ok h ▸ hx s

theorem KeepsPe.of_error {x : M α} (hx : KeepsPe x) {s t : State} {e : Trap} (h : x s = .error e t) :
    t.cr0.pe = s.cr0.pe := M.last_of_error h ▸ hx s

/-- What only touches the state keeps PE. -/
theorem Touches.keepsPe {x : M α} (hx : Touches x) : KeepsPe x := by
  intro s
  cases e : x s with
  | ok a t => rw [M.last_of_ok e, ((hx s).1 _ _ e).cr0]
  | error r t => rw [M.last_of_error e, ((hx s).2 _ _ e).cr0]

theorem Bused.cr0 {s u : State} (h : Bused s u) : u.cr0 = s.cr0 := by rw [h.rest]

/-- Bus cycles keep PE. -/
theorem KeepsPe.of_bused {x : M α} (hx : ∀ s, ∃ a u, x s = .ok a u ∧ Bused s u) : KeepsPe x := by
  intro s
  obtain ⟨a, u, e, h⟩ := hx s
  rw [M.last_of_ok e, h.cr0]

theorem KeepsPe.bind {x : M α} {f : α → M β} (hx : KeepsPe x) (hf : ∀ a, KeepsPe (f a)) : KeepsPe (x >>= f) := by
  intro s
  cases e : x s with
  | ok a t => rw [M.last, M.bind_ok e]; exact (hf a t).trans (hx.of_ok e)
  | error r t => rw [M.last_of_error (M.bind_error e f)]; exact hx.of_error e

theorem KeepsPe.modify_bind {f : State → State} {k : Unit → M β} (hf : ∀ s, (f s).cr0.pe = s.cr0.pe)
    (hk : ∀ a, KeepsPe (k a)) : KeepsPe ((modify f : M Unit) >>= k) := .bind hf hk

theorem KeepsPe.require_bind {b : Bool} {e : Exn} {k : Unit → M β} (hk : ∀ a, KeepsPe (k a)) :
    KeepsPe (require b e >>= k) := (Touches.require b e).keepsPe.bind hk

theorem KeepsPe.require (b : Bool) (e : Exn) : KeepsPe (require b e) := (Touches.require b e).keepsPe

@[simp] theorem KeepsPe.pure (a : α) : KeepsPe (pure a : M α) := fun _ => rfl

theorem KeepsPe.get : KeepsPe (get : M State) := fun _ => rfl

theorem KeepsPe.raise (e : Exn) : KeepsPe (raise e : M α) := fun _ => rfl

theorem KeepsPe.refuse (r : Refusal) : KeepsPe (refuse r : M α) := fun _ => rfl

theorem KeepsPe.draw (n : Nat) : KeepsPe (draw n) := fun _ => rfl

theorem KeepsPe.modify {f : State → State} (hf : ∀ s, (f s).cr0.pe = s.cr0.pe) : KeepsPe (modify f : M Unit) := hf

theorem KeepsPe.map (g : α → β) {x : M α} (hx : KeepsPe x) : KeepsPe (g <$> x) := by
  rw [map_eq_pure_bind]
  exact hx.bind fun a => .pure (g a)

theorem KeepsPe.ite {c : Prop} [Decidable c] {x y : M α} (hx : KeepsPe x) (hy : KeepsPe y) :
    KeepsPe (if c then x else y) := by
  split <;> assumption

/-- Two ways to one continuation. -/
theorem KeepsPe.branch {c : Prop} [Decidable c] {x y : M α} {k : α → M β} (hx : KeepsPe x) (hy : KeepsPe y)
    (hk : ∀ a, KeepsPe (k a)) : KeepsPe (if c then x >>= k else y >>= k) := .ite (hx.bind hk) (hy.bind hk)

/-- Something done on one condition before what is done in any case. -/
theorem KeepsPe.when {c : Prop} [Decidable c] {x : M Unit} {k : Unit → M β} (hx : KeepsPe x)
    (hk : ∀ a, KeepsPe (k a)) : KeepsPe (if c then x >>= k else k ()) := .ite (hx.bind hk) (hk ())

theorem KeepsPe.unless {c : Prop} [Decidable c] {x : M Unit} {k : Unit → M β} (hx : KeepsPe x)
    (hk : ∀ a, KeepsPe (k a)) : KeepsPe (if c then k () else x >>= k) := .ite (hk ()) (hx.bind hk)

/-! Memory, stack and ports. -/

theorem KeepsPe.linLocate (lin : Dword) (n : Nat) (write sys : Bool) : KeepsPe (linLocate lin n write sys) :=
  (Touches.linLocate lin n write sys).keepsPe

theorem KeepsPe.sysRead (lin : Dword) (n : Nat) : KeepsPe (sysRead lin n) := (Touches.sysRead lin n).keepsPe

theorem KeepsPe.sysRead16 (lin : Dword) : KeepsPe (sysRead16 lin) := (Touches.sysRead16 lin).keepsPe

theorem KeepsPe.memRead (ps : List Dword) : KeepsPe (memRead ps) := (Touches.memRead ps).keepsPe

theorem KeepsPe.memReadAll (ls : List (List Dword)) : KeepsPe (memReadAll ls) := (Touches.memReadAll ls).keepsPe

theorem KeepsPe.memWrite (ps : List Dword) (v : Nat) : KeepsPe (memWrite ps v) :=
  .of_bused fun s => ⟨(), memWrite_bused ps v s⟩

theorem KeepsPe.lockedModify (ps : List Dword) (f : Nat → Nat) : KeepsPe (lockedModify ps f) :=
  .of_bused fun s => ⟨(), lockedModify_bused ps f s⟩

theorem KeepsPe.ioRead (port : Nat) (w : Width) : KeepsPe (ioRead port w) := .of_bused (ioRead_bused port w)

theorem KeepsPe.ioWrite (port : Nat) (w : Width) (v : BitVec w.bits) : KeepsPe (ioWrite port w v) :=
  .of_bused fun s => ⟨(), ioWrite_bused port w v s⟩

theorem KeepsPe.ioPermitted (port n : Nat) : KeepsPe (ioPermitted port n) := (Touches.ioPermitted port n).keepsPe

theorem KeepsPe.memWriteAll (ls : List (List Dword)) (vs : List Nat) : KeepsPe (memWriteAll ls vs) := by
  induction ls generalizing vs with
  | nil => exact .pure ()
  | cons p ps ih =>
    cases vs with
    | nil => exact .pure ()
    | cons v vs => exact .bind (.memWrite p v) fun _ => ih vs

theorem KeepsPe.setStackPtr (v : Dword) : KeepsPe (setStackPtr v) := fun _ => rfl

theorem KeepsPe.moveStackPtr (v : Dword) : KeepsPe (moveStackPtr v) := fun _ => rfl

theorem KeepsPe.jumpTo (off : Dword) : KeepsPe (jumpTo off) := fun _ => rfl

theorem KeepsPe.advance : KeepsPe advance := fun _ => rfl

theorem KeepsPe.pushLocate (n k : Nat) : KeepsPe (pushLocate n k) := (Touches.pushLocate n k).keepsPe

theorem KeepsPe.popLocate (n k : Nat) : KeepsPe (popLocate n k) := (Touches.popLocate n k).keepsPe

theorem KeepsPe.locatePushes (n count k : Nat) : KeepsPe (locatePushes n count k) :=
  (Touches.locatePushes n count k).keepsPe

theorem KeepsPe.locateItems (n count k : Nat) : KeepsPe (locateItems n count k) :=
  (Touches.locateItems n count k).keepsPe

theorem KeepsPe.stackItem (n k : Nat) : KeepsPe (stackItem n k) := (Touches.stackItem n k).keepsPe

theorem KeepsPe.stackItems (n count k : Nat) : KeepsPe (stackItems n count k) := (Touches.stackItems n count k).keepsPe

theorem KeepsPe.peek (w : Width) (k : Nat) : KeepsPe (peek w k) := (Touches.peek w k).keepsPe

theorem KeepsPe.requireRoom (n count : Nat) : KeepsPe (requireRoom n count) := by
  refine .bind .get fun s => ?_
  split
  · exact .raise _
  · exact .pure _

theorem KeepsPe.requireStack (n : Nat) : KeepsPe (requireStack n) := by
  refine .bind .get fun s => ?_
  split
  · exact .raise _
  · exact .pure _

theorem KeepsPe.pushAll (n : Nat) (vs : List Nat) : KeepsPe (pushAll n vs) :=
  .bind (.locatePushes n _ 1) fun _ => .bind (.memWriteAll _ vs) fun _ => .moveStackPtr _

@[simp] theorem KeepsPe.push (w : Width) (v : BitVec w.bits) : KeepsPe (push w v) :=
  .bind (.pushLocate _ 1) fun _ => .bind (.memWrite _ _) fun _ => .moveStackPtr _

theorem KeepsPe.pop (w : Width) : KeepsPe (pop w) :=
  .bind (.peek w 0) fun _ => .bind (.moveStackPtr _) fun _ => .pure _

/-! Descriptors and segment registers. -/

theorem KeepsPe.setSeg (r : Sreg) (v : SegReg) : KeepsPe (setSeg r v) := fun _ => rfl

theorem KeepsPe.descAddr (sel : Word) (f : Word → Exn) : KeepsPe (descAddr sel f) :=
  .bind .get fun _ => .ite (.require_bind fun _ => .pure _) (.require_bind fun _ => .pure _)

theorem KeepsPe.readDesc (a : Dword) : KeepsPe (readDesc a) := .bind (.sysRead a 8) fun _ => .pure _

theorem KeepsPe.findDesc (sel : Word) (f : Word → Exn) : KeepsPe (findDesc sel f) :=
  .bind (.descAddr sel f) fun a => .bind (.readDesc a) fun _ => .pure _

theorem KeepsPe.locateAccessed (a : Dword) (d : Descriptor) : KeepsPe (locateAccessed a d) :=
  .ite (.pure _) (.linLocate _ _ _ _)

theorem KeepsPe.markAccessed (ps : List Dword) : KeepsPe (markAccessed ps) := .ite (.pure _) (.lockedModify _ _)

theorem KeepsPe.setAccessed (a : Dword) (d : Descriptor) : KeepsPe (setAccessed a d) :=
  .bind (.locateAccessed a d) fun ps => .markAccessed ps

theorem KeepsPe.loadDataSeg (sr : Sreg) (sel : Word) (f : Word → Exn) : KeepsPe (loadDataSeg sr sel f) :=
  .bind .get fun _ => .ite (.setSeg _ _) <|
    .bind (.findDesc sel f) fun _ => .require_bind fun _ => .require_bind fun _ =>
    .require_bind fun _ => .bind (.setAccessed _ _) fun _ => .setSeg _ _

theorem KeepsPe.loadSS (sel : Word) (cpl : BitVec 2) : KeepsPe (loadSS sel cpl) :=
  .require_bind fun _ => .bind (.findDesc sel _) fun _ => .require_bind fun _ =>
    .require_bind fun _ => .require_bind fun _ => .require_bind fun _ =>
    .bind (.setAccessed _ _) fun _ => .setSeg _ _

theorem KeepsPe.loadSeg (sr : Sreg) (sel : Word) : KeepsPe (loadSeg sr sel) :=
  .bind .get fun _ => .ite (.ite (.loadSS _ _) (.loadDataSeg _ _ _)) (.ite (.setSeg _ _) (.setSeg _ _))

theorem KeepsPe.inhibitAfterSS (sr : Sreg) : KeepsPe (inhibitAfterSS sr) := .ite (.modify fun _ => rfl) (.pure ())

theorem KeepsPe.commitCS (sel : Word) (d : Descriptor) (cpl : BitVec 2) : KeepsPe (commitCS sel d cpl) := fun _ => rfl

theorem KeepsPe.loadCS8086 (sel : Word) : KeepsPe (loadCS8086 sel) := fun _ => rfl

theorem KeepsPe.farLoad8086 (sel : Word) (off : Dword) : KeepsPe (farLoad8086 sel off) :=
  .bind .get fun _ => .require_bind fun _ => .bind (.loadCS8086 sel) fun _ => .jumpTo off

theorem KeepsPe.innerStack (p : BitVec 2) : KeepsPe (innerStack p) :=
  .bind .get fun _ => .require_bind fun _ => .bind (.linLocate _ _ _ _) fun espAt =>
    .bind (.linLocate _ _ _ _) fun selAt => .bind (.map _ (.memRead espAt)) fun _ =>
    .bind (.map _ (.memRead selAt)) fun _ => .require_bind fun _ =>
    .bind (.findDesc _ _) fun _ => .require_bind fun _ => .require_bind fun _ =>
    .require_bind fun _ => .pure _

theorem KeepsPe.switchStack (i : InnerStack) : KeepsPe (switchStack i) := fun _ => rfl

theorem KeepsPe.validateDataSegs : KeepsPe validateDataSegs := fun _ => rfl

theorem KeepsPe.selectorSlot (wide : Bool) (sel : Word) : KeepsPe (selectorSlot wide sel) :=
  .ite (.bind (.draw 16) fun _ => .pure _) (.pure _)

/-! The task switch (60_exceptions.md R670): it writes TS and no other bit of CR0. -/

theorem KeepsPe.locateFields (base : Dword) (write : Bool) (fs : List (Nat × Nat)) :
    KeepsPe (locateFields base write fs) := by
  induction fs with
  | nil => exact .pure _
  | cons f fs ih => exact .bind (.linLocate _ _ _ _) fun _ => ih.bind fun _ => .pure _

theorem KeepsPe.selectorSlots (ws : List Word) : KeepsPe (selectorSlots ws) := by
  induction ws with
  | nil => exact .pure _
  | cons w ws ih => exact .bind (.selectorSlot _ _) fun _ => ih.bind fun _ => .pure _

theorem KeepsPe.savedValues (is386 : Bool) (s : State) (fl : Flags) : KeepsPe (savedValues is386 s fl) :=
  .ite (.bind (.selectorSlots _) fun _ => .pure _) (.pure _)

theorem KeepsPe.loadedReg (is386 : Bool) (v : Nat) : KeepsPe (loadedReg is386 v) :=
  .ite (.pure _) (.bind (.draw 16) fun _ => .pure _)

theorem KeepsPe.inNewTask {x : M α} (hx : KeepsPe x) : KeepsPe (inNewTask x) := by
  intro s
  have h := hx s
  revert h
  unfold M.last Machine.inNewTask
  rcases x s with _ | ⟨_ | _ | _ | _, _⟩ <;> exact id

theorem KeepsPe.loadTaskLdt (ldt : Word) : KeepsPe (loadTaskLdt ldt) :=
  .ite (.pure ()) <| .require_bind fun _ => .bind (.findDesc _ _) fun _ =>
    .require_bind fun _ => .require_bind fun _ => .modify fun _ => rfl

theorem KeepsPe.loadTaskCS (cs : Word) : KeepsPe (loadTaskCS cs) :=
  .require_bind fun _ => .bind (.findDesc _ _) fun _ => .require_bind fun _ =>
    .require_bind fun _ => .require_bind fun _ => .bind (.setAccessed _ _) fun _ =>
    .commitCS _ _ _

theorem KeepsPe.loadTaskSS (ss : Word) : KeepsPe (loadTaskSS ss) :=
  .bind .get fun _ => .require_bind fun _ => .bind (.findDesc _ _) fun _ =>
    .require_bind fun _ => .require_bind fun _ => .bind (.setAccessed _ _) fun _ =>
    .setSeg _ _

theorem KeepsPe.loadTask8086 : KeepsPe loadTask8086 := fun _ => rfl

theorem KeepsPe.taskValidate (t : Bool) : KeepsPe (taskValidate t) := by
  refine .bind .get fun s => .bind (.loadTaskLdt _) fun _ => .ite (.bind .loadTask8086 fun _ => ?_)
    (.bind (.loadTaskCS _) fun _ => .bind (.loadTaskSS _) fun _ => .bind (.loadDataSeg _ _ _) fun _ =>
      .bind (.loadDataSeg _ _ _) fun _ => .bind (.loadDataSeg _ _ _) fun _ => .bind (.loadDataSeg _ _ _) fun _ => ?_)
  all_goals exact .bind .get fun _ => .require_bind fun _ => .ite (.modify fun _ => rfl) (.pure ())

theorem KeepsPe.taskLoad (is386 nests : Bool) (pageDir : Nat) (vs : List Nat) :
    KeepsPe (taskLoad is386 nests pageDir vs) :=
  .bind (.loadedReg _ _) fun _ => .bind (.loadedReg _ _) fun _ => .bind (.loadedReg _ _) fun _ =>
    .bind (.loadedReg _ _) fun _ => .bind (.loadedReg _ _) fun _ => .bind (.loadedReg _ _) fun _ =>
    .bind (.loadedReg _ _) fun _ => .bind (.loadedReg _ _) fun _ => .modify fun _ => rfl

theorem KeepsPe.changeTypeByte (ps : List Dword) (clear set_ : Byte) : KeepsPe (changeTypeByte ps clear set_) :=
  .lockedModify _ _

theorem KeepsPe.taskSwitch (sel : Word) (d : Descriptor) (kind : SwitchKind) : KeepsPe (taskSwitch sel d kind) :=
  .bind .get fun _ => .require_bind fun _ => .bind (.locateFields _ _ _) fun _ =>
    .bind (.locateFields _ _ _) fun _ =>
    .branch (.linLocate _ _ _ _) (.pure _) fun _ =>
    .branch (.pure _) (.linLocate _ _ _ _) fun _ =>
    .branch (.pure _) (.linLocate _ _ _ _) fun _ =>
    .bind (.savedValues _ _ _) fun _ => .bind (.memWriteAll _ _) fun _ =>
    .unless (.changeTypeByte _ _ _) fun _ =>
    .when (.memWrite _ _) fun _ =>
    .unless (.changeTypeByte _ _ _) fun _ =>
    .bind (.memReadAll _) fun _ => .modify_bind (fun s => by rw [State.noteHits_cr0]) fun _ =>
    .modify_bind (fun _ => rfl) fun _ => .bind (.taskLoad _ _ _ _) fun _ => (KeepsPe.taskValidate _).inNewTask

/-! Taking an exception or interrupt, and returns. -/

theorem KeepsPe.enterShutdown : KeepsPe enterShutdown := fun _ => rfl

theorem KeepsPe.realInterrupt (n : Nat) (ret : Dword) : KeepsPe (realInterrupt n ret) :=
  .bind .get fun _ => .ite (.ite .enterShutdown (.raise _)) <|
    .bind (.locatePushes _ _ _) fun _ => .bind (.sysRead16 _) fun _ => .bind (.sysRead16 _) fun _ =>
    .bind (.memWriteAll _ _) fun _ => .bind (.moveStackPtr _) fun _ => .modify_bind (fun _ => rfl) fun _ =>
    .bind (.loadCS8086 _) fun _ => .bind (.jumpTo _) fun _ => .pure _

theorem KeepsPe.codeSlot (wide : Bool) (code : Option Word) : KeepsPe (codeSlot wide code) := by
  cases code with
  | none => exact .pure _
  | some c => exact .bind (.selectorSlot wide c) fun _ => .pure _

theorem KeepsPe.interruptTaskGate (g : Descriptor) (ret : Dword) (code : Option Word) (rfImage : Bool) :
    KeepsPe (interruptTaskGate g ret code rfImage) := by
  refine .require_bind fun _ => .bind (.findDesc _ _) fun _ => .require_bind fun _ => .require_bind fun _ =>
    .modify_bind (fun _ => rfl) fun _ => .bind (.taskSwitch _ _ _) fun _ => ?_
  cases code with
  | none => exact .pure _
  | some c => exact .inNewTask (.bind .get fun _ => .bind (.selectorSlot _ _) fun _ => .pushAll _ _)

theorem KeepsPe.v86Entry (sel : Word) (a : Dword) (d : Descriptor) (off : Dword) (interruptGate : Bool)
    (image ret : Dword) (code : Option Word) : KeepsPe (v86Entry sel a d off interruptGate image ret code) :=
  .bind (.innerStack _) fun _ => .bind .get fun _ => .modify_bind (fun _ => rfl) fun _ =>
    .bind (.switchStack _) fun _ => .bind (.commitCS _ _ _) fun _ => .bind (.selectorSlot _ _) fun _ =>
    .bind (.selectorSlot _ _) fun _ => .bind (.selectorSlot _ _) fun _ => .bind (.selectorSlot _ _) fun _ =>
    .bind (.selectorSlot _ _) fun _ => .bind (.selectorSlot _ _) fun _ => .bind (.codeSlot _ _) fun _ =>
    .bind (.requireRoom _ _) fun _ => .require_bind fun _ => .bind (.locatePushes _ _ _) fun _ =>
    .bind (.locateAccessed _ _) fun _ => .bind (.locateAccessed _ _) fun _ => .bind (.markAccessed _) fun _ =>
    .bind (.markAccessed _) fun _ => .bind (.memWriteAll _ _) fun _ => .bind (.moveStackPtr _) fun _ =>
    .modify_bind (fun _ => rfl) fun _ => .jumpTo _

theorem KeepsPe.innerInterrupt (sel : Word) (a : Dword) (d : Descriptor) (off : Dword) (wide : Bool) (image ret : Dword)
    (code : Option Word) : KeepsPe (innerInterrupt sel a d off wide image ret code) :=
  .bind (.innerStack _) fun _ => .bind .get fun _ => .bind (.switchStack _) fun _ => .bind (.commitCS _ _ _) fun _ =>
    .bind (.selectorSlot _ _) fun _ => .bind (.selectorSlot _ _) fun _ => .bind (.codeSlot _ _) fun _ =>
    .bind (.requireRoom _ _) fun _ => .require_bind fun _ => .bind (.locatePushes _ _ _) fun _ =>
    .bind (.locateAccessed _ _) fun _ => .bind (.locateAccessed _ _) fun _ => .bind (.markAccessed _) fun _ =>
    .bind (.markAccessed _) fun _ => .bind (.memWriteAll _ _) fun _ => .bind (.moveStackPtr _) fun _ => .jumpTo _

theorem KeepsPe.sameLevelInterrupt (sel : Word) (a : Dword) (d : Descriptor) (off : Dword) (wide : Bool)
    (image ret : Dword) (code : Option Word) : KeepsPe (sameLevelInterrupt sel a d off wide image ret code) :=
  .bind .get fun _ => .bind (.selectorSlot _ _) fun _ => .bind (.codeSlot _ _) fun _ =>
    .bind (.requireRoom _ _) fun _ => .require_bind fun _ => .bind (.locatePushes _ _ _) fun _ =>
    .bind (.setAccessed _ _) fun _ =>
    .bind (.commitCS _ _ _) fun _ => .bind (.memWriteAll _ _) fun _ => .bind (.moveStackPtr _) fun _ => .jumpTo _

theorem KeepsPe.gateInterrupt (n : Nat) (software : Bool) (ret : Dword) (code : Option Word) (rfImage : Bool) :
    KeepsPe (gateInterrupt n software ret code rfImage) :=
  .bind .get fun _ => .require_bind fun _ => .bind (.readDesc _) fun _ => .require_bind fun _ => .require_bind fun _ =>
    .require_bind fun _ => .ite (.bind (.interruptTaskGate _ _ _ _) fun _ => .pure _) <|
    .require_bind fun _ => .bind (.findDesc _ _) fun _ => .require_bind fun _ => .require_bind fun _ =>
    .require_bind fun _ => .ite
      (.require_bind fun _ => .branch (.v86Entry _ _ _ _ _ _ _ _) (.refuse _) fun _ => .pure _)
      (.branch (.innerInterrupt _ _ _ _ _ _ _ _) (.sameLevelInterrupt _ _ _ _ _ _ _ _) fun _ =>
        .modify_bind (fun _ => rfl) fun _ => .pure _)

theorem KeepsPe.deliverOnce (n : Nat) (software : Bool) (ret : Dword) (code : Option Word) (rfImage : Bool) :
    KeepsPe (deliverOnce n software ret code rfImage) :=
  .bind .get fun _ => .ite (.gateInterrupt _ _ _ _ _) (.realInterrupt _ _)

/-- A failed delivery leaves PE alone too. -/
theorem KeepsPe.attempt {x : M Bool} (hx : KeepsPe x) : KeepsPe (attempt x) := by
  intro s
  cases e : x s with
  | ok b t => simpa [M.last, Machine.attempt, e] using hx.of_ok e
  | error r t =>
    have h := hx.of_error e
    cases r with
    | exn r => simp [M.last, Machine.attempt, e]
    | exnNew r => simpa [M.last, Machine.attempt, e] using h
    | fault f => simpa [M.last, Machine.attempt, e] using h
    | refused r => simpa [M.last, Machine.attempt, e] using h

theorem KeepsPe.errorCode (e : Exn) : KeepsPe (errorCode e) := by
  cases e <;> exact fun _ => rfl

theorem KeepsPe.exnOnce (e : Exn) (ret : Dword) : KeepsPe (exnOnce e ret) :=
  .bind (.errorCode e) fun _ => .deliverOnce _ _ _ _ _

theorem KeepsPe.nextReturn (f : Failure) (ret : Dword) : KeepsPe (nextReturn f ret) := fun _ => rfl

/-- An attempt, with what follows its success and its failure. -/
theorem KeepsPe.attempt_bind {x : M Bool} {k : Except Failure Bool → M β} (hx : KeepsPe x)
    (hok : ∀ b, KeepsPe (k (.ok b))) (herr : ∀ f, KeepsPe (k (.error f))) :
    KeepsPe (Machine.attempt x >>= k) :=
  .bind hx.attempt fun
    | .ok b => hok b
    | .error f => herr f

theorem KeepsPe.deliverLast {once : M Bool} (h : KeepsPe once) : KeepsPe (deliverLast once) :=
  .attempt_bind h (fun _ => .pure _) fun _ => .enterShutdown

theorem KeepsPe.deliverDouble (ret : Dword) : KeepsPe (deliverDouble ret) := .deliverLast (.exnOnce _ _)

theorem KeepsPe.deliverSecondPage (e : Exn) (ret : Dword) : KeepsPe (deliverSecondPage e ret) :=
  .deliverLast (.exnOnce _ _)

theorem KeepsPe.deliverPage (e : Exn) (ret : Dword) : KeepsPe (deliverPage e ret) := by
  refine .attempt_bind (.exnOnce e ret) (fun _ => .pure _) fun f => .bind (.nextReturn f ret) fun r => ?_
  split
  · exact .deliverSecondPage _ _
  · exact .deliverDouble _

theorem KeepsPe.deliverSegment (e : Exn) (ret : Dword) : KeepsPe (deliverSegment e ret) := by
  refine .attempt_bind (.exnOnce e ret) (fun _ => .pure _) fun f => .bind (.nextReturn f ret) fun r => ?_
  split
  · exact .deliverPage _ _
  · exact .deliverDouble _

theorem KeepsPe.deliverSecond (e : Exn) (ret : Dword) : KeepsPe (deliverSecond e ret) := by
  unfold Machine.deliverSecond
  split
  · exact .deliverDouble _
  · exact .deliverPage _ _
  · exact .deliverSegment _ _

theorem KeepsPe.deliverPlain {once : M Bool} (h : KeepsPe once) (ret : Dword) : KeepsPe (deliverPlain once ret) :=
  .attempt_bind h (fun _ => .pure _) fun f => .bind (.nextReturn f ret) fun _ => .deliverSecond _ _

/-- The delivery of an exception, with all its escalations. -/
theorem KeepsPe.deliverExn (e : Exn) (ret : Dword) : KeepsPe (deliverExn e ret) := by
  cases e with
  | df => exact .deliverDouble _
  | pf => exact .deliverPage _ _
  | ts | np | ss | gp => exact .deliverSegment _ _
  | de | db | br | ud | nm | mf => exact .deliverPlain (.deliverOnce _ _ _ _ _) _

@[simp] theorem KeepsPe.softwareInterrupt (n : Nat) : KeepsPe (softwareInterrupt n) :=
  .bind .get fun _ => .bind (.deliverOnce _ _ _ _ _) fun _ => .pure _

theorem KeepsPe.returnCS (sel : Word) (off : Dword) (items release : Nat) : KeepsPe (returnCS sel off items release) :=
  .bind .get fun _ => .require_bind fun _ => .bind (.findDesc _ _) fun _ => .require_bind fun _ =>
    .require_bind fun _ => .require_bind fun _ => .require_bind fun _ => .ite
      (.require_bind fun _ => .bind (.setAccessed _ _) fun _ => .bind (.moveStackPtr _) fun _ =>
        .bind (.commitCS _ _ _) fun _ => .jumpTo _)
      (.bind (.requireStack _) fun _ => .bind (.stackItems _ _ _) fun _ => .require_bind fun _ =>
        .bind (.findDesc _ _) fun _ => .require_bind fun _ => .require_bind fun _ => .require_bind fun _ =>
        .require_bind fun _ => .bind (.locateAccessed _ _) fun _ => .bind (.locateAccessed _ _) fun _ =>
        .bind (.markAccessed _) fun _ => .bind (.markAccessed _) fun _ => .bind (.commitCS _ _ _) fun _ =>
        .bind (.jumpTo _) fun _ => .bind (.setSeg _ _) fun _ => .branch (.draw 16) (.pure _) fun _ =>
        .bind (.setStackPtr _) fun _ => .bind (.moveStackPtr _) fun _ => .validateDataSegs)

theorem KeepsPe.iret8086 : KeepsPe iret8086 :=
  .bind .get fun _ => .require_bind fun _ => .bind (.requireStack _) fun _ => .bind (.stackItems _ _ _) fun _ =>
    .bind (.farLoad8086 _ _) fun _ => .bind (.moveStackPtr _) fun _ => .modify_bind (fun _ => rfl) fun _ => .pure _

theorem KeepsPe.returnToV86 (off : Dword) (sel : Word) (fl : Dword) : KeepsPe (returnToV86 off sel fl) :=
  .bind (.requireStack _) fun _ => .bind (.stackItems _ _ _) fun _ => .modify_bind (fun _ => rfl) fun _ => .jumpTo _

theorem KeepsPe.iretTask : KeepsPe iretTask :=
  .bind .get fun _ => .bind (.sysRead16 _) fun _ => .require_bind fun _ => .bind (.findDesc _ _) fun _ =>
    .require_bind fun _ => .require_bind fun _ => .bind .advance fun _ => .taskSwitch _ _ _

theorem KeepsPe.endNmi : KeepsPe endNmi := fun _ => rfl

theorem KeepsPe.iretProtected : KeepsPe iretProtected := by
  refine .bind .get fun _ => .ite (.bind .endNmi fun _ => .bind .iretTask fun _ => .pure _) <|
    .bind (.requireStack _) fun _ => .bind (.stackItems _ _ _) fun _ =>
    .ite (.bind (.returnToV86 _ _ _) fun _ => ?_)
      (.bind (.returnCS _ _ _ _) fun _ => .modify_bind (fun _ => rfl) fun _ => ?_)
  all_goals exact .bind .endNmi fun _ => .pure _

@[simp] theorem KeepsPe.interruptReturn : KeepsPe interruptReturn :=
  .bind .get fun _ => .ite .iretProtected .iret8086

/-! Operands and flags. -/

theorem KeepsPe.getReg (w : Width) (r : Reg) : KeepsPe (getReg w r) := fun _ => rfl

@[simp] theorem KeepsPe.setReg (w : Width) (r : Reg) (v : BitVec w.bits) : KeepsPe (setReg w r v) := fun _ => rfl

theorem KeepsPe.segRead (sr : Sreg) (off : Dword) (w : Width) : KeepsPe (segRead sr off w) :=
  .bind (Touches.segLocate _ _ _ _).keepsPe fun ps => .bind (.memRead ps) fun _ => .pure _

theorem KeepsPe.locateEa (ea : EA) (k n : Nat) (write : Bool) : KeepsPe (locateEa ea k n write) :=
  (Touches.locateEa ea k n write).keepsPe

theorem KeepsPe.readParts (ea : EA) (n m : Nat) : KeepsPe (readParts ea n m) := (Touches.readParts ea n m).keepsPe

theorem KeepsPe.readFar (ea : EA) : KeepsPe (readFar ea) := (Touches.readFar ea).keepsPe

theorem KeepsPe.locateMoffs (off : Dword) (n : Nat) (write : Bool) : KeepsPe (locateMoffs off n write) :=
  (Touches.locateMoffs off n write).keepsPe

theorem KeepsPe.locateSource (w : Width) : KeepsPe (locateSource w) := (Touches.locateSource w).keepsPe

theorem KeepsPe.locateDest (w : Width) (write : Bool) : KeepsPe (locateDest w write) :=
  (Touches.locateDest w write).keepsPe

theorem KeepsPe.locate (w : Width) (rm : Rm) (write : Bool) : KeepsPe (locate w rm write) :=
  (Touches.locate w rm write).keepsPe

theorem KeepsPe.getPlace (w : Width) (p : Place) : KeepsPe (getPlace w p) := (Touches.getPlace w p).keepsPe

theorem KeepsPe.getPlaceToWrite (w : Width) (lock : Bool) (p : Place) : KeepsPe (getPlaceToWrite w lock p) :=
  (Touches.getPlaceToWrite w lock p).keepsPe

theorem KeepsPe.readRm (w : Width) (rm : Rm) : KeepsPe (readRm w rm) := (Touches.readRm w rm).keepsPe

theorem KeepsPe.putPlace (w : Width) (p : Place) (v : BitVec w.bits) : KeepsPe (putPlace w p v) := by
  cases p with
  | reg r => exact .setReg w r v
  | mem ps => exact .memWrite ps v.toNat

@[simp] theorem KeepsPe.writeRm (w : Width) (rm : Rm) (v : BitVec w.bits) : KeepsPe (writeRm w rm v) :=
  .bind (.locate w rm true) fun p => .putPlace w p v

theorem KeepsPe.writeRm16 (rm : Rm) (v : Word) : KeepsPe (writeRm16 rm v) := by
  refine .bind .get fun _ => ?_
  cases rm with
  | reg r => exact .ite (.bind (.draw 16) fun _ => .setReg _ _ _) (.setReg _ _ _)
  | mem ea => exact .writeRm _ _ _

theorem KeepsPe.addAsReg (r : Reg) (v : Dword) : KeepsPe (addAsReg r v) := fun _ => rfl

theorem KeepsPe.stepPointer (w : Width) (r : Reg) : KeepsPe (stepPointer w r) := fun _ => rfl

theorem KeepsPe.readValue (w : Width) (ps : List Dword) : KeepsPe (readValue w ps) :=
  .bind (.memRead ps) fun _ => .pure _

theorem KeepsPe.setFlags (f : Flags) : KeepsPe (setFlags f) := fun _ => rfl

@[simp] theorem KeepsPe.updateFlags (f : Flags → Flags) : KeepsPe (updateFlags f) := fun _ => rfl

@[simp] theorem KeepsPe.opAdd {n : Nat} (a b : BitVec n) : KeepsPe (opAdd a b) := fun _ => rfl

@[simp] theorem KeepsPe.opAdc {n : Nat} (a b : BitVec n) : KeepsPe (opAdc a b) := fun _ => rfl

@[simp] theorem KeepsPe.opSub {n : Nat} (a b : BitVec n) : KeepsPe (opSub a b) := fun _ => rfl

@[simp] theorem KeepsPe.opSbb {n : Nat} (a b : BitVec n) : KeepsPe (opSbb a b) := fun _ => rfl

@[simp] theorem KeepsPe.opAnd {n : Nat} (a b : BitVec n) : KeepsPe (opAnd a b) := fun _ => rfl

@[simp] theorem KeepsPe.opOr {n : Nat} (a b : BitVec n) : KeepsPe (opOr a b) := fun _ => rfl

@[simp] theorem KeepsPe.opXor {n : Nat} (a b : BitVec n) : KeepsPe (opXor a b) := fun _ => rfl

@[simp] theorem KeepsPe.opInc {n : Nat} (a : BitVec n) : KeepsPe (opInc a) := fun _ => rfl

@[simp] theorem KeepsPe.opDec {n : Nat} (a : BitVec n) : KeepsPe (opDec a) := fun _ => rfl

@[simp] theorem KeepsPe.opNeg {n : Nat} (a : BitVec n) : KeepsPe (opNeg a) := fun _ => rfl

@[simp] theorem KeepsPe.opNot {n : Nat} (a : BitVec n) : KeepsPe (opNot a) := fun _ => rfl

theorem KeepsPe.shiftOf (c : Nat) (of1 : Bool) : KeepsPe (shiftOf c of1) := .ite (.pure _) fun _ => rfl

@[simp] theorem KeepsPe.finishShift {n : Nat} (c : Nat) (r : Shifted n) : KeepsPe (finishShift c r) :=
  .bind (.shiftOf _ _) fun _ _ => rfl

@[simp] theorem KeepsPe.finishRotate {n : Nat} (c : Nat) (r : Shifted n) : KeepsPe (finishRotate c r) :=
  .bind (.shiftOf _ _) fun _ _ => rfl

theorem KeepsPe.freeStatus : KeepsPe freeStatus := fun _ => rfl

theorem KeepsPe.mulFlags (high : Bool) : KeepsPe (mulFlags high) := fun _ => rfl

theorem KeepsPe.bitFlags (cf : Bool) : KeepsPe (bitFlags cf) := fun _ => rfl

theorem KeepsPe.scanFlags (zf : Bool) : KeepsPe (scanFlags zf) := fun _ => rfl

/-! Arithmetic, logic and bits. -/

section
variable (w : Width) (rm : Rm) (r : Reg)

@[simp] theorem KeepsPe.aluTo {op : Binary} (h : ∀ {n} (a b : BitVec n), KeepsPe (op a b)) (b : BitVec w.bits) :
    KeepsPe (aluTo w op rm b) :=
  .bind (.locate _ _ _) fun _ => .bind .get fun _ => .bind (.getPlaceToWrite _ _ _) fun _ => .bind (h _ _) fun _ =>
    .putPlace _ _ _

@[simp] theorem KeepsPe.aluRmReg {op : Binary} (h : ∀ {n} (a b : BitVec n), KeepsPe (op a b)) :
    KeepsPe (aluRmReg w op rm r) := .bind (.getReg _ _) fun _ => .aluTo _ _ h _

@[simp] theorem KeepsPe.aluRegRm {op : Binary} (h : ∀ {n} (a b : BitVec n), KeepsPe (op a b)) :
    KeepsPe (aluRegRm w op r rm) := .bind (.readRm _ _) fun _ => .aluTo _ _ h _

@[simp] theorem KeepsPe.testTo {op : Binary} (h : ∀ {n} (a b : BitVec n), KeepsPe (op a b)) (b : BitVec w.bits) :
    KeepsPe (testTo w op rm b) := .bind (.readRm _ _) fun _ => .bind (h _ _) fun _ => .pure _

@[simp] theorem KeepsPe.testRmReg {op : Binary} (h : ∀ {n} (a b : BitVec n), KeepsPe (op a b)) :
    KeepsPe (testRmReg w op rm r) := .bind (.getReg _ _) fun _ => .testTo _ _ h _

@[simp] theorem KeepsPe.testRegRm {op : Binary} (h : ∀ {n} (a b : BitVec n), KeepsPe (op a b)) :
    KeepsPe (testRegRm w op r rm) := .bind (.readRm _ _) fun _ => .testTo _ _ h _

@[simp] theorem KeepsPe.unaryRm {op : Unary} (h : ∀ {n} (a : BitVec n), KeepsPe (op a)) : KeepsPe (unaryRm w op rm) :=
  .bind (.locate _ _ _) fun _ => .bind .get fun _ => .bind (.getPlaceToWrite _ _ _) fun _ => .bind (h _) fun _ =>
    .putPlace _ _ _

theorem KeepsPe.putWide (v : Nat) : KeepsPe (putWide w v) := by
  cases w <;> exact fun _ => rfl

theorem KeepsPe.putQuotient (q x : BitVec w.bits) : KeepsPe (putQuotient w q x) := fun _ => rfl

@[simp] theorem KeepsPe.multiply : KeepsPe (multiply w rm) :=
  .bind (.readRm _ _) fun _ => .bind (.getReg _ _) fun _ => .bind (.putWide _ _) fun _ => .mulFlags _

@[simp] theorem KeepsPe.multiplySigned : KeepsPe (multiplySigned w rm) :=
  .bind (.readRm _ _) fun _ => .bind (.getReg _ _) fun _ => .bind (.putWide _ _) fun _ => .mulFlags _

theorem KeepsPe.multiplyInto (a b : BitVec w.bits) : KeepsPe (multiplyInto w r a b) := fun _ => rfl

@[simp] theorem KeepsPe.multiplyReg : KeepsPe (multiplyReg w r rm) :=
  .bind (.readRm _ _) fun _ => .bind (.getReg _ _) fun _ => .multiplyInto _ _ _ _

@[simp] theorem KeepsPe.multiplyImm (b : BitVec w.bits) : KeepsPe (multiplyImm w r rm b) :=
  .bind (.readRm _ _) fun _ => .multiplyInto _ _ _ _

@[simp] theorem KeepsPe.divide : KeepsPe (divide w rm) :=
  .bind (.readRm _ _) fun _ => .bind .get fun _ => .require_bind fun _ => .require_bind fun _ =>
    .bind (.putQuotient _ _ _) fun _ => .freeStatus

@[simp] theorem KeepsPe.divideSigned : KeepsPe (divideSigned w rm) :=
  .bind (.readRm _ _) fun _ => .bind .get fun _ => .require_bind fun _ => .require_bind fun _ =>
    .bind (.putQuotient _ _ _) fun _ => .freeStatus

@[simp] theorem KeepsPe.decimalAdjust (f : Byte → Bool → Bool → Adjusted) : KeepsPe (decimalAdjust f) :=
  fun _ => rfl

@[simp] theorem KeepsPe.asciiAdjust (step6 step1 : Byte) (ahOpen : Byte → Bool) :
    KeepsPe (asciiAdjust step6 step1 ahOpen) := fun _ => rfl

@[simp] theorem KeepsPe.asciiMultiply (base : Byte) : KeepsPe (asciiMultiply base) := .require_bind fun _ _ => rfl

@[simp] theorem KeepsPe.asciiDivide (base : Byte) : KeepsPe (asciiDivide base) := fun _ => rfl

@[simp] theorem KeepsPe.shiftRm (op : Shift) {ends : ShiftEnd}
    (h : ∀ {n} (c : Nat) (x : Shifted n), KeepsPe (ends c x)) (count : Byte) : KeepsPe (shiftRm w op ends rm count) :=
  .bind (.locate _ _ _) fun _ => .bind (.getPlace _ _) fun _ => .bind .get fun _ =>
    .ite (.pure _) (.bind (h _ _) fun _ => .putPlace _ _ _)

@[simp] theorem KeepsPe.shiftRmCl (op : Shift) {ends : ShiftEnd}
    (h : ∀ {n} (c : Nat) (x : Shifted n), KeepsPe (ends c x)) : KeepsPe (shiftRmCl w op ends rm) :=
  .bind (.getReg _ _) fun _ => .shiftRm _ _ _ h _

@[simp] theorem KeepsPe.doubleShift (f : {n : Nat} → BitVec n → BitVec n → Nat → Shifted n) (count : Byte) :
    KeepsPe (doubleShift w f rm r count) :=
  .bind (.locate _ _ _) fun _ => .bind (.getPlace _ _) fun _ => .bind (.getReg _ _) fun _ => .ite (.pure _) <|
    .ite (.bind (.draw _) fun _ => .bind .freeStatus fun _ => .putPlace _ _ _)
      (.bind (.finishShift _ _) fun _ => .putPlace _ _ _)

@[simp] theorem KeepsPe.doubleShiftCl (f : {n : Nat} → BitVec n → BitVec n → Nat → Shifted n) :
    KeepsPe (doubleShiftCl w f rm r) := .bind (.getReg _ _) fun _ => .doubleShift _ _ _ _ _

theorem KeepsPe.locateBit (offset : BitVec w.bits) (write : Bool) : KeepsPe (locateBit w rm offset write) := by
  cases rm with
  | reg r => exact .pure _
  | mem ea => exact .bind .get fun _ => .map _ (Touches.segLocate _ _ _ _).keepsPe

theorem KeepsPe.testBit (p : Place) (k : Nat) : KeepsPe (testBit w p k) := .bind (.getPlace _ _) fun _ => .bitFlags _

theorem KeepsPe.changeBit (f : {n : Nat} → BitVec n → BitVec n → BitVec n) (p : Place) (k : Nat) :
    KeepsPe (changeBit w f p k) :=
  .bind .get fun _ => .bind (.getPlaceToWrite _ _ _) fun _ => .bind (.bitFlags _) fun _ => .putPlace _ _ _

@[simp] theorem KeepsPe.testBitReg : KeepsPe (testBitReg w rm r) :=
  .bind (.getReg _ _) fun _ => .bind (.locateBit _ _ _ _) fun _ => .testBit _ _ _

@[simp] theorem KeepsPe.testBitImm (imm : Byte) : KeepsPe (testBitImm w rm imm) :=
  .bind (.locate _ _ _) fun _ => .testBit _ _ _

@[simp] theorem KeepsPe.changeBitReg (f : {n : Nat} → BitVec n → BitVec n → BitVec n) :
    KeepsPe (changeBitReg w f rm r) :=
  .bind (.getReg _ _) fun _ => .bind (.locateBit _ _ _ _) fun _ => .changeBit _ _ _ _

@[simp] theorem KeepsPe.changeBitImm (f : {n : Nat} → BitVec n → BitVec n → BitVec n) (imm : Byte) :
    KeepsPe (changeBitImm w f rm imm) := .bind (.locate _ _ _) fun _ => .changeBit _ _ _ _

@[simp] theorem KeepsPe.scanBits (f : {n : Nat} → BitVec n → Nat) : KeepsPe (scanBits w f r rm) :=
  .bind (.readRm _ _) fun _ => .bind (.scanFlags _) fun _ => .bind (.draw _) fun _ => .setReg _ _ _

/-! Data transfer. -/

@[simp] theorem KeepsPe.moveToRm : KeepsPe (moveToRm w rm r) := .bind (.getReg _ _) fun _ => .writeRm _ _ _

@[simp] theorem KeepsPe.moveToReg : KeepsPe (moveToReg w r rm) := .bind (.readRm _ _) fun _ => .setReg _ _ _

@[simp] theorem KeepsPe.loadMoffs (off : Dword) : KeepsPe (loadMoffs w off) :=
  .bind (.locateMoffs _ _ _) fun _ => .bind (.readValue _ _) fun _ => .setReg _ _ _

@[simp] theorem KeepsPe.storeMoffs (off : Dword) : KeepsPe (storeMoffs w off) :=
  .bind (.getReg _ _) fun _ => .bind (.locateMoffs _ _ _) fun _ => .memWrite _ _

@[simp] theorem KeepsPe.moveFromSreg (sr : Sreg) : KeepsPe (moveFromSreg rm sr) := .bind .get fun _ => .writeRm16 _ _

@[simp] theorem KeepsPe.moveToSreg (sr : Sreg) : KeepsPe (moveToSreg sr rm) :=
  .bind (.readRm _ _) fun _ => .bind (.loadSeg _ _) fun _ => .inhibitAfterSS _

@[simp] theorem KeepsPe.pushReg : KeepsPe (pushReg w r) := .bind (.getReg _ _) fun _ => .push _ _

@[simp] theorem KeepsPe.pushRm : KeepsPe (pushRm w rm) :=
  .bind (.locate _ _ _) fun _ => .bind (.pushLocate _ _) fun _ => .bind (.getPlace _ _) fun _ =>
    .bind (.memWrite _ _) fun _ => .moveStackPtr _

@[simp] theorem KeepsPe.pushSreg (sr : Sreg) : KeepsPe (pushSreg sr) :=
  .bind .get fun _ => .ite (.bind (.draw 16) fun _ => .push _ _) (.push _ _)

@[simp] theorem KeepsPe.popReg : KeepsPe (popReg w r) := .bind (.pop _) fun _ => .setReg _ _ _

@[simp] theorem KeepsPe.popRm : KeepsPe (popRm w rm) :=
  .bind (.popLocate _ _) fun _ => .bind (.moveStackPtr _) fun _ => .bind (.locate _ _ _) fun _ =>
    .bind (.memRead _) fun _ => .putPlace _ _ _

@[simp] theorem KeepsPe.popSreg (sr : Sreg) : KeepsPe (popSreg sr) :=
  .bind .get fun _ => .bind (.stackItem _ _) fun _ => .bind (.loadSeg _ _) fun _ => .bind (.moveStackPtr _) fun _ =>
    .inhibitAfterSS _

@[simp] theorem KeepsPe.pushAllRegs : KeepsPe (pushAllRegs w) := .bind .get fun _ => .pushAll _ _

@[simp] theorem KeepsPe.popAllRegs : KeepsPe (popAllRegs w) := .bind (.stackItems _ _ _) fun _ _ => rfl

@[simp] theorem KeepsPe.exchange : KeepsPe (exchange w rm r) :=
  .bind (.locate _ _ _) fun _ => .bind (.getPlaceToWrite _ _ _) fun _ => .bind (.getReg _ _) fun _ =>
    .bind (.putPlace _ _ _) fun _ => .setReg _ _ _

@[simp] theorem KeepsPe.translateByte : KeepsPe translateByte :=
  .bind .get fun _ => .bind (.segRead _ _ _) fun _ => .setReg _ _ _

@[simp] theorem KeepsPe.moveZero : KeepsPe (moveZero r w rm) :=
  .bind .get fun _ => .bind (.readRm _ _) fun _ => .setReg _ _ _

@[simp] theorem KeepsPe.moveSign : KeepsPe (moveSign r w rm) :=
  .bind .get fun _ => .bind (.readRm _ _) fun _ => .setReg _ _ _

@[simp] theorem KeepsPe.convertAcc (os32 : Bool) : KeepsPe (convertAcc os32) :=
  .bind .get fun _ => .ite (.setReg _ _ _) (.setReg _ _ _)

@[simp] theorem KeepsPe.spreadSign : KeepsPe (spreadSign w) := .bind (.getReg _ _) fun _ => .setReg _ _ _

@[simp] theorem KeepsPe.inPort (port : Nat) : KeepsPe (inPort w port) :=
  .bind (.ioPermitted _ _) fun _ => .bind (.ioRead _ _) fun _ => .setReg _ _ _

@[simp] theorem KeepsPe.outPort (port : Nat) : KeepsPe (outPort w port) :=
  .bind (.ioPermitted _ _) fun _ => .bind (.getReg _ _) fun _ => .ioWrite _ _ _

@[simp] theorem KeepsPe.loadAddress (ea : EA) : KeepsPe (loadAddress w r ea) := .bind .get fun _ => .setReg _ _ _

@[simp] theorem KeepsPe.loadPointer (sr : Sreg) (ea : EA) : KeepsPe (loadPointer sr r ea) :=
  .bind .get fun _ => .bind (.readFar _) fun _ => .bind (.loadSeg _ _) fun _ => .setReg _ _ _

@[simp] theorem KeepsPe.loadAh : KeepsPe loadAh := fun _ => rfl

@[simp] theorem KeepsPe.storeAh : KeepsPe storeAh := fun _ => rfl

theorem KeepsPe.requireIopl86 : KeepsPe requireIopl86 := .bind .get fun _ => .require _ _

@[simp] theorem KeepsPe.pushFlags : KeepsPe (pushFlags w) :=
  .bind .requireIopl86 fun _ => .bind .get fun _ => .push _ _

@[simp] theorem KeepsPe.popFlags : KeepsPe (popFlags w) :=
  .bind .requireIopl86 fun _ => .bind .get fun _ => .bind (.pop _) fun _ => .bind (.setFlags _) fun _ =>
    .bind .advance fun _ => .pure _

/-! Program control. -/

theorem KeepsPe.requireInCS (t : Dword) : KeepsPe (requireInCS t) := .bind .get fun _ => .require _ _

theorem KeepsPe.setEip (t : Dword) : KeepsPe (setEip t) := .bind (.requireInCS _) fun _ => .jumpTo _

@[simp] theorem KeepsPe.jumpIf (taken : Bool) (rel : Dword) : KeepsPe (jumpIf taken rel) :=
  .bind .get fun _ => .branch (.setEip _) .advance fun _ => .pure _

@[simp] theorem KeepsPe.jumpCond (c : Cond) (rel : Dword) : KeepsPe (jumpCond c rel) := .bind .get fun _ => .jumpIf _ _

@[simp] theorem KeepsPe.setCond (c : Cond) : KeepsPe (setCond c rm) := .bind .get fun _ => .writeRm _ _ _

@[simp] theorem KeepsPe.jumpRm : KeepsPe (jumpRm w rm) :=
  .bind (.readRm _ _) fun _ => .bind (.setEip _) fun _ => .pure _

theorem KeepsPe.callNear (t : Dword) : KeepsPe (callNear w t) :=
  .bind .get fun _ => .bind (.requireInCS _) fun _ => .bind (.push _ _) fun _ => .bind (.jumpTo _) fun _ => .pure _

@[simp] theorem KeepsPe.callRelative (rel : Dword) : KeepsPe (callRelative rel) := .bind .get fun _ => .callNear _ _

@[simp] theorem KeepsPe.callRm : KeepsPe (callRm w rm) := .bind (.readRm _ _) fun _ => .callNear _ _

@[simp] theorem KeepsPe.returnNear (n : Word) : KeepsPe (returnNear w n) :=
  .bind (.peek _ _) fun _ => .bind (.requireInCS _) fun _ => .bind (.moveStackPtr _) fun _ =>
    .bind (.jumpTo _) fun _ => .pure _

@[simp] theorem KeepsPe.loopIf (cond : Flags → Bool) (rel : Byte) : KeepsPe (loopIf cond rel) :=
  .bind (.addAsReg _ _) fun _ => .bind .get fun _ => .jumpIf _ _

@[simp] theorem KeepsPe.jumpCountZero (rel : Byte) : KeepsPe (jumpCountZero rel) := .bind .get fun _ => .jumpIf _ _

end

theorem KeepsPe.farSameLevel (kind : FarKind) (n : Nat) (sel : Word) (a : Dword) (d : Descriptor) (off : Dword) :
    KeepsPe (farSameLevel kind n sel a d off) := by
  refine .bind .get fun _ => .when (.requireRoom _ _) fun _ => .require_bind fun _ =>
    .branch (.locatePushes _ _ _) (.pure _) fun _ => .bind (.locateAccessed _ _) fun _ =>
    .ite (.bind (.selectorSlot _ _) fun _ => .bind (.memWriteAll _ _) fun _ => .bind (.moveStackPtr _) fun _ => ?_) ?_
  all_goals exact .bind (.markAccessed _) fun _ => .bind (.commitCS _ _ _) fun _ => .bind (.jumpTo _) fun _ => .pure _

theorem KeepsPe.directCode (kind : FarKind) (sel : Word) (a : Dword) (d : Descriptor) (off : Dword) :
    KeepsPe (directCode kind sel a d off) :=
  .bind .get fun _ => .require_bind fun _ => .require_bind fun _ => .farSameLevel _ _ _ _ _ _

theorem KeepsPe.innerCall (g : Descriptor) (sel : Word) (a : Dword) (d : Descriptor) (off : Dword) :
    KeepsPe (innerCall g sel a d off) := by
  refine .bind (.innerStack _) fun _ => .bind .get fun _ => ?_
  dsimp only
  split
  · exact fun _ => rfl
  · exact .require_bind fun _ => .bind (.locateItems _ _ _) fun _ => .bind (.switchStack _) fun _ =>
      .bind (.commitCS _ _ _) fun _ => .bind (.locatePushes _ _ _) fun _ => .bind (.locateAccessed _ _) fun _ =>
      .bind (.locateAccessed _ _) fun _ => .bind (.memReadAll _) fun _ => .bind (.selectorSlot _ _) fun _ =>
      .bind (.markAccessed _) fun _ => .bind (.markAccessed _) fun _ => .bind (.memWriteAll _ _) fun _ =>
      .bind (.moveStackPtr _) fun _ => .bind (.jumpTo _) fun _ => .pure _

theorem KeepsPe.callGate (kind : FarKind) (gsel : Word) (g : Descriptor) : KeepsPe (callGate kind gsel g) :=
  .bind .get fun _ => .require_bind fun _ => .require_bind fun _ => .require_bind fun _ =>
    .bind (.findDesc _ _) fun _ => .require_bind fun _ => .require_bind fun _ => .require_bind fun _ =>
    .require_bind fun _ =>
    .ite (.innerCall _ _ _ _ _) (.farSameLevel _ _ _ _ _ _)

theorem KeepsPe.tssDirect (kind : FarKind) (sel : Word) (d : Descriptor) : KeepsPe (tssDirect kind sel d) :=
  .bind .get fun _ => .require_bind fun _ => .require_bind fun _ => .require_bind fun _ => .bind .advance fun _ =>
    .bind (.taskSwitch _ _ _) fun _ => .pure _

theorem KeepsPe.taskGate (kind : FarKind) (gsel : Word) (g : Descriptor) : KeepsPe (taskGate kind gsel g) :=
  .bind .get fun _ => .require_bind fun _ => .require_bind fun _ => .require_bind fun _ =>
    .bind (.findDesc _ _) fun _ => .require_bind fun _ => .require_bind fun _ => .bind .advance fun _ =>
    .bind (.taskSwitch _ _ _) fun _ => .pure _

theorem KeepsPe.farTransfer (kind : FarKind) (sel : Word) (off : Dword) : KeepsPe (farTransfer kind sel off) := by
  refine .require_bind fun _ => .bind (.findDesc _ _) fun _ =>
    .ite (.require_bind fun _ => .directCode _ _ _ _ _) ?_
  split
  · exact .callGate _ _ _
  · exact .callGate _ _ _
  · exact .taskGate _ _ _
  · exact .tssDirect _ _ _
  · exact .tssDirect _ _ _
  · exact .raise _

@[simp] theorem KeepsPe.jumpFar (sel : Word) (off : Dword) : KeepsPe (jumpFar sel off) :=
  .bind .get fun _ => .ite (.farTransfer _ _ _) (.bind (.farLoad8086 _ _) fun _ => .pure _)

@[simp] theorem KeepsPe.callFar (sel : Word) (off : Dword) : KeepsPe (callFar sel off) :=
  .bind .get fun _ => .ite (.farTransfer _ _ _) <| .bind (.requireInCS _) fun _ => .bind (.requireRoom _ _) fun _ =>
    .bind (.selectorSlot _ _) fun _ => .bind (.pushAll _ _) fun _ => .bind (.farLoad8086 _ _) fun _ => .pure _

@[simp] theorem KeepsPe.jumpFarM (ea : EA) : KeepsPe (jumpFarM ea) := .bind (.readFar _) fun _ => .jumpFar _ _

@[simp] theorem KeepsPe.callFarM (ea : EA) : KeepsPe (callFarM ea) := .bind (.readFar _) fun _ => .callFar _ _

@[simp] theorem KeepsPe.returnFar (n : Word) : KeepsPe (returnFar n) := by
  refine .bind .get fun _ => .bind (.requireStack _) fun _ => .bind (.stackItems _ _ _) fun _ =>
    .ite (.bind (.returnCS _ _ _ _) fun _ => .pure _)
      (.bind (.farLoad8086 _ _) fun _ => .bind (.moveStackPtr _) fun _ => .pure _)

@[simp] theorem KeepsPe.interruptN (n : Byte) : KeepsPe (interruptN n) :=
  .bind .requireIopl86 fun _ => .softwareInterrupt _

@[simp] theorem KeepsPe.interruptOverflow : KeepsPe interruptOverflow :=
  .bind .get fun _ => .ite (.softwareInterrupt _) (.bind .advance fun _ => .pure _)

theorem KeepsPe.requireIopl : KeepsPe requireIopl := .bind .get fun _ => .require _ _

@[simp] theorem KeepsPe.clearIf : KeepsPe clearIf := .bind .requireIopl fun _ => .updateFlags _

@[simp] theorem KeepsPe.setIf : KeepsPe setIf := .bind .requireIopl fun _ => .modify fun _ => rfl

/-! Frames, processor control and strings. -/

@[simp] theorem KeepsPe.checkBounds (w : Width) (r : Reg) (ea : EA) : KeepsPe (checkBounds w r ea) :=
  .bind (.getReg _ _) fun _ => .bind (.readParts _ _ _) fun _ => .require _ _

theorem KeepsPe.locateDisplay (n count i : Nat) : KeepsPe (locateDisplay n count i) := by
  induction count generalizing i with
  | zero => exact .pure _
  | succ c ih =>
    exact .bind .get fun _ => .bind (Touches.segLocate _ _ _ _).keepsPe fun _ => .bind (.pushLocate _ _) fun _ =>
      .bind (ih _) fun _ => .pure _

theorem KeepsPe.copyDisplay (ls : List (List Dword × List Dword)) : KeepsPe (copyDisplay ls) := by
  induction ls with
  | nil => exact .pure _
  | cons l ls ih => exact .bind (.memRead _) fun _ => .bind (.memWrite _ _) fun _ => ih

@[simp] theorem KeepsPe.enterFrame (w : Width) (size : Word) (level8 : Byte) : KeepsPe (enterFrame w size level8) :=
  .bind .get fun _ => .bind (.pushLocate _ _) fun _ => .bind (.locateDisplay _ _ _) fun _ =>
    .branch (.pure _) (.pushLocate _ _) fun _ => .bind (.memWrite _ _) fun _ => .bind (.copyDisplay _) fun _ =>
    .bind (.memWrite _ _) fun _ => .modify_bind (fun _ => rfl) fun _ => .bind (.setReg _ _ _) fun _ => .moveStackPtr _

@[simp] theorem KeepsPe.leaveFrame (w : Width) : KeepsPe (leaveFrame w) :=
  .bind .get fun _ => .bind (.segRead _ _ _) fun _ => .bind (.setStackPtr _) fun _ => .setReg _ _ _

theorem KeepsPe.requirePrivileged : KeepsPe requirePrivileged := .bind .get fun _ => .require _ _

theorem KeepsPe.requireProtected : KeepsPe requireProtected := .bind .get fun _ => .require _ _

@[simp] theorem KeepsPe.halt : KeepsPe halt :=
  .bind .requirePrivileged fun _ => .modify_bind (fun s => by rw [State.decideHeld_cr0]) fun _ => .modify fun _ => rfl

@[simp] theorem KeepsPe.waitBusy : KeepsPe waitBusy :=
  .bind .get fun _ => .require_bind fun _ => .ite (.pure _) <| .require_bind fun _ => .bind .advance fun _ => .pure _

@[simp] theorem KeepsPe.escape : KeepsPe escape := .bind .get fun _ => .require_bind fun _ => .refuse _

theorem KeepsPe.endIteration (compares : Bool) (k : RepKind) : KeepsPe (endIteration compares k) :=
  .bind (.addAsReg _ _) fun _ => .bind .get fun _ => .ite (.bind .advance fun _ => .pure _) (.pure _)

@[simp] theorem KeepsPe.repeatStep (compares : Bool) {body : M Unit} (h : KeepsPe body) :
    KeepsPe (repeatStep compares body) := by
  refine .bind .get fun _ => ?_
  split
  · exact .bind h fun _ => .bind .advance fun _ => .pure _
  · exact .ite (.bind .advance fun _ => .pure _) (.bind h fun _ => .endIteration _ _)

@[simp] theorem KeepsPe.moveElement (w : Width) : KeepsPe (moveElement w) :=
  .bind (.locateSource _) fun _ => .bind (.locateDest _ _) fun _ => .bind (.readValue _ _) fun _ =>
    .bind (.memWrite _ _) fun _ => .bind (.stepPointer _ _) fun _ => .stepPointer _ _

@[simp] theorem KeepsPe.compareElements (w : Width) : KeepsPe (compareElements w) :=
  .bind (.locateSource _) fun _ => .bind (.locateDest _ _) fun _ => .bind (.readValue _ _) fun _ =>
    .bind (.readValue _ _) fun _ => .bind (.opSub _ _) fun _ => .bind (.stepPointer _ _) fun _ => .stepPointer _ _

@[simp] theorem KeepsPe.scanElement (w : Width) : KeepsPe (scanElement w) :=
  .bind (.locateDest _ _) fun _ => .bind (.readValue _ _) fun _ => .bind (.getReg _ _) fun _ =>
    .bind (.opSub _ _) fun _ => .stepPointer _ _

@[simp] theorem KeepsPe.loadElement (w : Width) : KeepsPe (loadElement w) :=
  .bind (.locateSource _) fun _ => .bind (.readValue _ _) fun _ => .bind (.setReg _ _ _) fun _ => .stepPointer _ _

@[simp] theorem KeepsPe.storeElement (w : Width) : KeepsPe (storeElement w) :=
  .bind (.getReg _ _) fun _ => .bind (.locateDest _ _) fun _ => .bind (.memWrite _ _) fun _ => .stepPointer _ _

@[simp] theorem KeepsPe.inElement (w : Width) : KeepsPe (inElement w) :=
  .bind .get fun _ => .bind (.ioPermitted _ _) fun _ => .bind (.locateDest _ _) fun _ => .bind (.ioRead _ _) fun _ =>
    .bind (.memWrite _ _) fun _ => .stepPointer _ _

@[simp] theorem KeepsPe.outElement (w : Width) : KeepsPe (outElement w) :=
  .bind .get fun _ => .bind (.ioPermitted _ _) fun _ => .bind (.locateSource _) fun _ => .bind (.readValue _ _) fun _ =>
    .bind (.ioWrite _ _ _) fun _ => .stepPointer _ _

/-! System registers: all but MOV CR0 and LMSW. -/

@[simp] theorem KeepsPe.storeTable (t : TableReg) (ea : EA) : KeepsPe (storeTable t ea) :=
  .bind .get fun _ => .bind (.locateEa _ _ _ _) fun _ => .bind (.locateEa _ _ _ _) fun _ => .bind (.draw 8) fun _ =>
    .bind (.memWrite _ _) fun _ => .memWrite _ _

theorem KeepsPe.readTable (ea : EA) : KeepsPe (readTable ea) :=
  .bind .get fun _ => .bind (.readParts _ _ _) fun _ => .pure _

@[simp] theorem KeepsPe.loadGdt (ea : EA) : KeepsPe (loadGdt ea) :=
  .bind .requirePrivileged fun _ => .bind (.readTable _) fun _ => .modify fun _ => rfl

@[simp] theorem KeepsPe.loadIdt (ea : EA) : KeepsPe (loadIdt ea) :=
  .bind .requirePrivileged fun _ => .bind (.readTable _) fun _ => .modify fun _ => rfl

@[simp] theorem KeepsPe.storeSelector (sel : State → Word) (rm : Rm) : KeepsPe (storeSelector sel rm) :=
  .bind .requireProtected fun _ => .bind .get fun _ => .writeRm16 _ _

@[simp] theorem KeepsPe.loadLdt (rm : Rm) : KeepsPe (loadLdt rm) :=
  .bind .requireProtected fun _ => .bind .requirePrivileged fun _ => .bind (.readRm _ _) fun _ =>
    .ite (.modify fun _ => rfl) <| .require_bind fun _ => .bind (.findDesc _ _) fun _ => .require_bind fun _ =>
    .require_bind fun _ => .modify fun _ => rfl

@[simp] theorem KeepsPe.loadTask (rm : Rm) : KeepsPe (loadTask rm) :=
  .bind .requireProtected fun _ => .bind .requirePrivileged fun _ => .bind (.readRm _ _) fun _ => .require_bind fun _ =>
    .require_bind fun _ => .bind (.findDesc _ _) fun _ => .require_bind fun _ => .require_bind fun _ =>
    .bind (.linLocate _ _ _ _) fun _ => .bind (.changeTypeByte _ _ _) fun _ => .modify fun _ => rfl

theorem KeepsPe.visible (sel : Word) : KeepsPe (visible sel) :=
  .bind .get fun _ => .ite (.pure _) (.bind (.readDesc _) fun _ => .pure _)

theorem KeepsPe.setZf (z : Bool) : KeepsPe (setZf z) := fun _ => rfl

@[simp] theorem KeepsPe.adjustRpl (rm : Rm) (r : Reg) : KeepsPe (adjustRpl rm r) :=
  .bind .requireProtected fun _ => .bind (.locate _ _ _) fun _ => .bind (.getPlace _ _) fun _ =>
    .bind (.getReg _ _) fun _ => .ite (.bind (.putPlace _ _ _) fun _ => .setZf _) (.setZf _)

@[simp] theorem KeepsPe.loadFromDesc (ok : Descriptor → Bool) (value : Descriptor → Dword) (r : Reg) (rm : Rm) :
    KeepsPe (loadFromDesc ok value r rm) := by
  refine .bind .requireProtected fun _ => .bind .get fun _ => .bind (.readRm _ _) fun _ =>
    .bind (.visible _) fun d => ?_
  cases d with
  | none => exact .setZf _
  | some d => exact .ite (.bind (.setReg _ _ _) fun _ => .setZf _) (.setZf _)

@[simp] theorem KeepsPe.verify (ok : Descriptor → Bool) (rm : Rm) : KeepsPe (verify ok rm) :=
  .bind .requireProtected fun _ => .bind (.readRm _ _) fun _ => .bind (.visible _) fun _ => .setZf _

@[simp] theorem KeepsPe.storeMsw (rm : Rm) : KeepsPe (storeMsw rm) :=
  .bind .get fun _ => .bind (.draw _) fun _ => .writeRm16 _ _

@[simp] theorem KeepsPe.clearTs : KeepsPe clearTs := .bind .requirePrivileged fun _ => .modify fun _ => rfl

theorem KeepsPe.withFree (mask v : Dword) : KeepsPe (withFree mask v) := fun _ => rfl

theorem KeepsPe.readControl (n : BitVec 3) : KeepsPe (readControl n) := by
  refine .bind .get fun _ => ?_
  split
  · exact .withFree _ _
  · exact .pure _
  · exact .withFree _ _
  · exact .raise _

/-- A write of another control register than CR0. -/
theorem KeepsPe.writeControl {n : BitVec 3} (hn : n ≠ 0) (v : Dword) : KeepsPe (writeControl n v) := by
  unfold Machine.writeControl
  split
  case h_1 h => exact absurd (BitVec.eq_of_toNat_eq h) hn
  case h_2 => exact .modify fun _ => rfl
  case h_3 => exact .modify_bind (fun _ => rfl) fun _ => .modify fun _ => rfl
  case h_4 => exact .raise _

@[simp] theorem KeepsPe.moveFromControl (r : Reg) (n : BitVec 3) : KeepsPe (moveFromControl r n) :=
  .bind .requirePrivileged fun _ => .bind (.readControl _) fun _ => .bind (.setReg _ _ _) fun _ => .freeStatus

theorem KeepsPe.moveToControl {n : BitVec 3} (hn : n ≠ 0) (r : Reg) : KeepsPe (moveToControl n r) :=
  .bind .requirePrivileged fun _ => .bind (.getReg _ _) fun _ => .bind (.writeControl hn _) fun _ => .freeStatus

theorem KeepsPe.requireDebug : KeepsPe requireDebug :=
  .bind .requirePrivileged fun _ => .bind .get fun _ => .require _ _

theorem KeepsPe.readDebug (n : BitVec 3) : KeepsPe (readDebug n) := by
  refine .bind .get fun _ => ?_
  split
  case h_5 | h_6 => exact .withFree _ _
  case h_7 => exact .refuse _
  all_goals exact .pure _

theorem KeepsPe.writeDebug (n : BitVec 3) (v : Dword) : KeepsPe (writeDebug n v) := by
  unfold Machine.writeDebug
  split
  case h_7 => exact .refuse _
  all_goals exact .modify fun _ => rfl

@[simp] theorem KeepsPe.moveFromDebug (r : Reg) (n : BitVec 3) : KeepsPe (moveFromDebug r n) :=
  .bind .requireDebug fun _ => .bind (.readDebug _) fun _ => .bind (.setReg _ _ _) fun _ => .freeStatus

@[simp] theorem KeepsPe.moveToDebug (n : BitVec 3) (r : Reg) : KeepsPe (moveToDebug n r) :=
  .bind .requireDebug fun _ => .bind (.getReg _ _) fun _ => .bind (.writeDebug _ _) fun _ => .freeStatus

theorem KeepsPe.pairBit (x notX : Bool) : KeepsPe (pairBit x notX) := .ite (.pure _) fun _ => rfl

theorem KeepsPe.tlbWrite (c : Dword) : KeepsPe (tlbWrite c) :=
  .bind .get fun _ => .bind (.pairBit _ _) fun _ => .bind (.pairBit _ _) fun _ => .bind (.pairBit _ _) fun _ =>
    .bind (.draw 2) fun _ => .modify fun _ => rfl

theorem KeepsPe.tlbLookup (c : Dword) : KeepsPe (tlbLookup c) := by
  refine .bind .get fun _ => ?_
  split
  · exact fun _ => rfl
  · exact .modify fun _ => rfl
  · exact .refuse _

theorem KeepsPe.readTest (n : BitVec 3) : KeepsPe (readTest n) := by
  refine .bind .get fun _ => ?_
  split
  · exact .withFree _ _
  · exact .withFree _ _
  · exact .raise _

theorem KeepsPe.writeTest (n : BitVec 3) (v : Dword) : KeepsPe (writeTest n v) := by
  unfold Machine.writeTest
  split
  · exact .bind .get fun _ => .ite (.refuse _) <| .modify_bind (fun _ => rfl) fun _ =>
      .ite (.tlbLookup _) (.tlbWrite _)
  · exact .modify fun _ => rfl
  · exact .raise _

@[simp] theorem KeepsPe.moveFromTest (r : Reg) (n : BitVec 3) : KeepsPe (moveFromTest r n) :=
  .bind .requirePrivileged fun _ => .bind (.readTest _) fun _ => .bind (.setReg _ _ _) fun _ => .freeStatus

@[simp] theorem KeepsPe.moveToTest (n : BitVec 3) (r : Reg) : KeepsPe (moveToTest n r) :=
  .bind .requirePrivileged fun _ => .bind (.getReg _ _) fun _ => .bind (.writeTest _ _) fun _ => .freeStatus

/-! Outcomes. -/

/-- A sequence stops short where one of its parts does. -/
theorem M.bind_eq_error {x : M α} {f : α → M β} {s t : State} {e : Trap} (h : (x >>= f) s = .error e t) :
    x s = .error e t ∨ ∃ a u, x s = .ok a u ∧ f a u = .error e t := by
  cases hx : x s with
  | ok a u => exact .inr ⟨a, u, rfl, (M.bind_ok hx f).symm.trans h⟩
  | error r u =>
    cases (M.bind_error hx f).symm.trans h
    exact .inl rfl

/-- A delivery leaves PE alone, also one that fails. -/
theorem pe_of_delivered {x : M Bool} (hx : KeepsPe x) {s t : State} (h : delivered x s = .next t) :
    t.cr0.pe = s.cr0.pe := by
  cases hs : x s with
  | ok b u =>
    simp only [delivered, hs] at h
    cases h
    rw [State.idle_cr0, hx.of_ok hs]
  | error r u =>
    have hu := hx.of_error hs
    cases r with
    | exn e | exnNew e =>
      simp only [delivered, hs] at h
      cases h
      rw [State.idle_cr0, State.noteExn_cr0, hu]
    | fault f | refused r => simp [delivered, hs] at h

/-- Taking an exception leaves PE as the instruction found it: what the instruction did is undone (60_exceptions.md
R601). -/
theorem pe_of_takeExn {s t u : State} {e : Exn} (h : takeExn s t e = .next u) : u.cr0.pe = s.cr0.pe := by
  rw [pe_of_delivered (.deliverExn _ _) h, State.idle_cr0, State.afterFault_cr0]

/-- So does taking one in a new task, where PE is that of the new task's state. -/
theorem pe_of_takeExnNew {t u : State} {e : Exn} (h : takeExnNew t e = .next u) : u.cr0.pe = t.cr0.pe := by
  rw [pe_of_delivered (.deliverExn _ _) h, State.idle_cr0, State.noteExn_cr0]

theorem pe_of_stopped {s t u : State} {r : Trap} (ht : t.cr0.pe = s.cr0.pe) (h : stopped s t r = .next u) :
    u.cr0.pe = s.cr0.pe := by
  cases r with
  | exn e => exact pe_of_takeExn h
  | exnNew e => exact (pe_of_takeExnNew h).trans ht
  | fault f => cases h
  | refused r => cases h

/-- The outcome of a meaning that leaves PE alone. -/
theorem pe_of_runInstr {body : M Done} (hb : KeepsPe body) {s t : State} (h : runInstr body s = .next t) :
    t.cr0.pe = s.cr0.pe := by
  cases hs : body s with
  | ok d u =>
    rw [runInstr_ok hs] at h
    cases h
    rw [State.finish_cr0, hb.of_ok hs]
  | error r u =>
    rw [runInstr, hs] at h
    exact pe_of_stopped (hb.of_error hs) h

/-- A simple instruction answers a next state in two ways: its meaning completes, or it stops short and that is
handled. -/
theorem runSimple_eq_next {body : M Unit} {s t : State} (h : runSimple body s = .next t) :
    (∃ u, body s = .ok () u ∧ t.cr0 = u.cr0) ∨ ∃ r u, body s = .error r u ∧ stopped s u r = .next t := by
  cases hs : body s with
  | ok a u =>
    rw [runSimple_ok hs] at h
    cases h
    exact .inl ⟨u, rfl, State.finish_cr0 ..⟩
  | error r u =>
    rw [runSimple, runInstr, M.bind_error hs] at h
    exact .inr ⟨r, u, rfl, h⟩

theorem pe_of_runSimple {body : M Unit} (hb : KeepsPe body) {s t : State} (h : runSimple body s = .next t) :
    t.cr0.pe = s.cr0.pe := by
  obtain ⟨u, hu, ht⟩ | ⟨r, u, hu, ht⟩ := runSimple_eq_next h
  · rw [ht, hb.of_ok hu]
  · exact pe_of_stopped (hb.of_error hu) ht

/-- Every instruction that answers a next state leaves PE alone but MOV CR0 and LMSW: the first group only records
itself in what is being decoded, the second sets EIP its own way, and all others end by going on past themselves. -/
theorem exec_pe {i : Instr} {s t : State} (hmov : ∀ r, i ≠ .movCrR32 0 r) (hlmsw : ∀ rm, i ≠ .lmsw rm)
    (h : exec i s = .next t) : t.cr0.pe = s.cr0.pe := by
  cases i with
  | movCrR32 n r =>
    have hn : n ≠ 0 := fun h0 => hmov r (h0 ▸ rfl)
    exact pe_of_runSimple (.moveToControl hn r) h
  | lmsw rm => exact absurd rfl (hlmsw rm)
  | segEs | segCs | segSs | segDs | segFs | segGs | opSize | addrSize | lockPrefix | repne | rep =>
    cases h
    rfl
  | insb | insv | outsb | outsv | joRel8 | jnoRel8 | jbRel8 | jaeRel8 | jeRel8 | jneRel8 | jbeRel8 | jaRel8 | jsRel8
  | jnsRel8 | jpRel8 | jnpRel8 | jlRel8 | jgeRel8 | jleRel8 | jgRel8 | callPtr | wait | popf | movsb | movsv | cmpsb
  | cmpsv | stosb | stosv | lodsb | lodsv | scasb | scasv | retNearImm16 | retNear | retFarImm16 | retFar | int3
  | intImm8 | into | iret | esc | loopne | loope | loop | jcxz | callRelv | jmpRelv | jmpPtr | jmpRel8 | callRmv
  | callM | jmpRmv | jmpM | joRelv | jnoRelv | jbRelv | jaeRelv | jeRelv | jneRelv | jbeRelv | jaRelv | jsRelv
  | jnsRelv | jpRelv | jnpRelv | jlRelv | jgeRelv | jleRelv | jgRelv =>
    exact pe_of_runInstr (by simp) h
  | _ =>
    delta exec at h
    exact pe_of_runSimple (by simp) h

/-! The two that write PE. -/

theorem requirePrivileged_ok {s : State} (h : s.mayRun) : requirePrivileged s = .ok () s := by
  obtain h | h := h <;> simp [requirePrivileged, h]

theorem writeControl_zero {v : Dword} (hv : v.getLsbD 31 = false ∨ v.getLsbD 0 = true) (s : State) :
    writeControl 0 v s = .ok () { s with cr0 := Cr0.ofWord v } := by
  have hpg : ¬ (v.getLsbD 31 && !v.getLsbD 0) = true := by
    obtain hv | hv := hv
    · rw [hv, Bool.false_and]
      exact Bool.false_ne_true
    · rw [hv, Bool.not_true, Bool.and_false]
      exact Bool.false_ne_true
  exact congrFun (if_neg hpg) s

/-- MOV CR0 loads PE from bit 0, unless the value asks for paging without protection. -/
theorem exec_movCr0 {s : State} {r : Reg} (h : s.mayRun)
    (hv : (s.regs.get r).getLsbD 31 = false ∨ (s.regs.get r).getLsbD 0 = true) :
    ∃ t, exec (.movCrR32 0 r) s = .next t ∧ t.cr0.pe = (s.regs.get r).getLsbD 0 := by
  have hbody : moveToControl 0 r s = freeStatus { s with cr0 := Cr0.ofWord (s.regs.get r) } := by
    rw [moveToControl, M.bind_ok (requirePrivileged_ok h), M.bind_ok (getReg_apply .w32 r s)]
    exact M.bind_ok (writeControl_zero hv s) _
  exact ⟨_, runSimple_ok hbody, by rw [State.finish_cr0]; rfl⟩

/-- LMSW sets PE where bit 0 of its operand is 1, and leaves it as it is else. -/
theorem exec_lmsw {s u : State} {rm : Rm} {p : Place} (hc : s.closed = true) (h : s.mayRun)
    (hl : locate .w16 rm false s = .ok p u) :
    ∃ t, exec (.lmsw rm) s = .next t ∧ t.cr0.pe = (s.cr0.pe || (u.placeValue .w16 p).getLsbD 0) := by
  have hpe : u.cr0.pe = s.cr0.pe := (KeepsPe.locate .w16 rm false).of_ok hl
  have hbody : ∃ t, loadMsw rm s = .ok () t ∧ t.cr0.pe = (u.cr0.pe || (u.placeValue .w16 p).getLsbD 0) :=
    ⟨_, (M.bind_ok (requirePrivileged_ok h) _).trans (M.bind_ok (readRm_ok hc hl) _), rfl⟩
  obtain ⟨t, ht, hpt⟩ := hbody
  exact ⟨_, runSimple_ok ht, by rw [State.finish_cr0, ← hpe]; exact hpt⟩

/-- LMSW never resets PE (47_protection_model.md R526), whether it completes or takes an exception. -/
theorem exec_lmsw_pe {s t : State} {rm : Rm} (h : exec (.lmsw rm) s = .next t) (hpe : s.cr0.pe = true) :
    t.cr0.pe = true := by
  obtain ⟨u, hu, ht⟩ | ⟨r, u, hu, ht⟩ := runSimple_eq_next (body := loadMsw rm) h
  · obtain ⟨_, v, hv, hu⟩ := M.bind_eq_ok hu
    obtain ⟨_, w, hw, hu⟩ := M.bind_eq_ok hu
    have : w.cr0.pe = true := by
      rw [(KeepsPe.readRm _ _).of_ok hw, KeepsPe.requirePrivileged.of_ok hv, hpe]
    cases hu
    simp [ht, this]
  · refine (pe_of_stopped ?_ ht).trans hpe
    obtain hu | ⟨_, v, hv, hu⟩ := M.bind_eq_error hu
    · exact KeepsPe.requirePrivileged.of_error hu
    · obtain hu | ⟨_, w, hw, hu⟩ := M.bind_eq_error hu
      · exact ((KeepsPe.readRm _ _).of_error hu).trans (KeepsPe.requirePrivileged.of_ok hv)
      · cases hu

/-- Settles O46: every instruction but MOV CR0 and LMSW keeps PE, by the rules for the operations it is made of, and
LMSW keeps it once it is 1. -/
theorem protectedModeBitStays : Obligations.ProtectedModeBitStays := by
  refine ⟨rfl, fun s r h hv => exec_movCr0 h hv, fun s u rm p hc h hl => exec_lmsw hc h hl, fun s t i h => ?_⟩
  by_cases hmov : ∃ r, i = .movCrR32 0 r
  · exact ⟨fun _ _ => hmov, fun _ _ => .inl hmov⟩
  by_cases hlmsw : ∃ rm, i = .lmsw rm
  · refine ⟨fun hs ht => ?_, fun _ _ => .inr hlmsw⟩
    obtain ⟨rm, rfl⟩ := hlmsw
    exact absurd (exec_lmsw_pe h hs) (by simp [ht])
  · have hpe := exec_pe (not_exists.1 hmov) (not_exists.1 hlmsw) h
    exact ⟨fun hs ht => by simp [hpe, hs] at ht, fun hs ht => by simp [hpe, hs] at ht⟩

end Sys2Proof.Machine

/-! The values and flags of AddFlags and SubFlags (41_arithmetic.md R360) from the unbounded sum and difference. OF is
the rule to explain: the signed result of two words wraps around at most once, and a wrap shows in its sign. -/

namespace Sys2Proof.Machine

variable {n : Nat}

/-! The values. -/

theorem addValue_eq_ofNat (a b : BitVec n) (c : Bool) :
    addValue a b c = BitVec.ofNat n (a.toNat + b.toNat + c.toNat) := by
  simp [addValue, BitVec.ofNat_add]

theorem ofInt_sub (x y : Int) : BitVec.ofInt n (x - y) = BitVec.ofInt n x - BitVec.ofInt n y := by
  rw [Int.sub_eq_add_neg, BitVec.ofInt_add, BitVec.ofInt_neg, BitVec.sub_eq_add_neg]

theorem subValue_eq_ofInt (a b : BitVec n) (c : Bool) :
    subValue a b c = BitVec.ofInt n (a.toNat - b.toNat - c.toNat) := by
  simp [subValue, ofInt_sub]

theorem toInt_addValue (a b : BitVec n) (c : Bool) :
    (addValue a b c).toInt = (a.toInt + b.toInt + c.toNat).bmod (2 ^ n) := by
  rw [← BitVec.toInt_ofInt]
  simp only [addValue, BitVec.ofInt_add, BitVec.ofInt_toInt, BitVec.ofInt_natCast]

theorem toInt_subValue (a b : BitVec n) (c : Bool) :
    (subValue a b c).toInt = (a.toInt - b.toInt - c.toNat).bmod (2 ^ n) := by
  rw [← BitVec.toInt_ofInt]
  simp only [subValue, ofInt_sub, BitVec.ofInt_toInt, BitVec.ofInt_natCast]

/-! SF, ZF and PF. -/

theorem ofInt_beq_zero (x : Int) : (BitVec.ofInt n x == 0) = decide (x % 2 ^ n = 0) := by
  have hmod : 0 ≤ x % ((2 ^ n : Nat) : Int) := Int.emod_nonneg x (by simp)
  rw [beq_eq_decide, decide_eq_decide, ← BitVec.toNat_inj, BitVec.toNat_ofInt, BitVec.ofNat_eq_ofNat,
    BitVec.toNat_zero, Int.toNat_eq_zero]
  exact_mod_cast (Int.le_antisymm_iff.trans (and_iff_left hmod)).symm

theorem ofNat_beq_zero (x : Nat) : (BitVec.ofNat n x == 0) = decide (x % 2 ^ n = 0) := by
  rw [beq_eq_decide, decide_eq_decide, ← BitVec.toNat_inj]
  simp

/-- The parity of a list of bits is their exclusive or. -/
theorem countP_even_eq_xor {α : Type} (p : α → Bool) (l : List α) :
    decide (l.countP p % 2 = 0) = !l.foldr (fun x b => p x ^^ b) false := by
  induction l with
  | nil => rfl
  | cons x l ih =>
    rw [List.foldr_cons, List.countP_cons]
    cases p x with
    | false => simpa using ih
    | true =>
      rw [Bool.true_xor, ← ih, if_pos rfl, ← decide_not, decide_eq_decide]
      omega

theorem evenParity_eq_countP (r : BitVec n) :
    evenParity (r.setWidth 8) = decide ((List.range 8).countP r.getLsbD % 2 = 0) := by
  rw [countP_even_eq_xor]
  simp [evenParity, List.range, List.range.loop]

/-- SZP from the signed value and the bits of the result. -/
theorem Flags.szp_eq (f : Flags) (r : BitVec n) :
    f.szp r = { f with
      sf := decide (r.toInt < 0)
      zf := r == 0
      pf := decide ((List.range 8).countP r.getLsbD % 2 = 0) } := by
  rw [Flags.szp, BitVec.msb_eq_toInt, evenParity_eq_countP]

/-! OF. -/

/-- A value at most one whole turn away from the signed values wraps around at most once. -/
theorem bmod_eq_wrap {x : Int} {h : Nat} (hlo : -(2 * h) ≤ x) (hhi : x < 2 * h) :
    x.bmod (2 * h) = if x < -h then x + 2 * h else if x < h then x else x - 2 * h := by
  split
  case isTrue hx =>
    rw [← Int.add_bmod_right, Int.bmod_eq_of_le_mul_two] <;> push_cast <;> omega
  case isFalse hx =>
    split
    · exact Int.bmod_eq_of_le_mul_two (by omega) (by omega)
    · rw [← Int.sub_bmod_right, Int.bmod_eq_of_le_mul_two] <;> push_cast <;> omega

/-- A signed sum does not fit exactly when the operands have the same sign and the result has the other one. -/
theorem bmod_add_ne_iff {x y c : Int} {h : Nat} (hx : -h ≤ x ∧ x < h) (hy : -h ≤ y ∧ y < h) (hc : 0 ≤ c ∧ c ≤ 1) :
    (x + y + c).bmod (2 * h) ≠ x + y + c ↔
      (x < 0 ↔ y < 0) ∧ ¬((x + y + c).bmod (2 * h) < 0 ↔ x < 0) := by
  rw [bmod_eq_wrap (by omega) (by omega)]
  split
  case isTrue => omega
  case isFalse => split <;> omega

/-- Subtraction adds the complement: `x - y - c = x + (-y - 1) + (1 - c)`. -/
theorem bmod_sub_ne_iff {x y c : Int} {h : Nat} (hx : -h ≤ x ∧ x < h) (hy : -h ≤ y ∧ y < h) (hc : 0 ≤ c ∧ c ≤ 1) :
    (x - y - c).bmod (2 * h) ≠ x - y - c ↔
      ¬(x < 0 ↔ y < 0) ∧ ¬((x - y - c).bmod (2 * h) < 0 ↔ x < 0) := by
  have hsum : x - y - c = x + (-y - 1) + (1 - c) := by omega
  have hsign : ¬(x < 0 ↔ y < 0) ↔ (x < 0 ↔ -y - 1 < 0) := by omega
  rw [hsum, hsign]
  exact bmod_add_ne_iff hx (by omega) (by omega)

theorem toInt_bounds (a : BitVec n) : -(2 ^ (n - 1) : Nat) ≤ a.toInt ∧ a.toInt < (2 ^ (n - 1) : Nat) := by
  exact_mod_cast And.intro a.le_toInt a.toInt_lt

theorem toNat_bounds (c : Bool) : (0 : Int) ≤ c.toNat ∧ (c.toNat : Int) ≤ 1 := by
  cases c <;> decide

theorem addValue_overflow (hn : 0 < n) (a b : BitVec n) (c : Bool) :
    (a.msb == b.msb && (addValue a b c).msb != a.msb) =
      decide ((addValue a b c).toInt ≠ a.toInt + b.toInt + c.toNat) := by
  have hiff := bmod_add_ne_iff (toInt_bounds a) (toInt_bounds b) (toNat_bounds c)
  rw [mul_pow_sub_one hn.ne', ← toInt_addValue] at hiff
  rw [Bool.eq_iff_iff, decide_eq_true_iff, hiff]
  simp [BitVec.msb_eq_toInt]

theorem subValue_overflow (hn : 0 < n) (a b : BitVec n) (c : Bool) :
    (a.msb != b.msb && (subValue a b c).msb != a.msb) =
      decide ((subValue a b c).toInt ≠ a.toInt - b.toInt - c.toNat) := by
  have hiff := bmod_sub_ne_iff (toInt_bounds a) (toInt_bounds b) (toNat_bounds c)
  rw [mul_pow_sub_one hn.ne', ← toInt_subValue] at hiff
  rw [Bool.eq_iff_iff, decide_eq_true_iff, hiff]
  simp [BitVec.msb_eq_toInt]

/-! All flags. -/

theorem bits_pos (w : Width) : 0 < w.bits := by
  cases w <;> decide

/-- Settles O1: the values are the words of the unbounded sum and difference, OF is by `addValue_overflow` and
`subValue_overflow`, and the other flags are read off the same words. -/
theorem addSubResultAndFlags : Obligations.AddSubResultAndFlags := by
  intro f w a b c
  refine ⟨⟨addValue_eq_ofNat a b c, ?_⟩, ⟨subValue_eq_ofInt a b c, ?_⟩⟩
  · rw [Flags.adding, addValue_overflow (bits_pos w), Flags.szp_eq, addValue_eq_ofNat, ofNat_beq_zero]
  · have hcf : (a.toNat < b.toNat + c.toNat) ↔ ((a.toNat : Int) - b.toNat - c.toNat < 0) := by omega
    rw [Flags.subtracting, subValue_overflow (bits_pos w), Flags.szp_eq, subValue_eq_ofInt, ofInt_beq_zero,
      decide_eq_decide.2 hcf]

end Sys2Proof.Machine

/-! Decoding what the encoder writes (30_encoding.md): each operand of an encoding is read back by the part of the
decoder that reads it, so that an instruction is read back by the row of the opcode map that its first bytes select. -/

namespace Sys2Proof

/-! How a decoder computes. -/

section
variable {α β : Type}

@[simp] theorem Dec.bind_apply (x : Dec α) (f : α → Dec β) (bs : List Byte) :
    (x >>= f) bs = match x bs with
      | .ok (a, rest) => f a rest
      | .error e => .error e := by
  simp only [bind, StateT.bind, Except.bind]
  cases x bs <;> rfl

@[simp] theorem Dec.map_apply (f : α → β) (x : Dec α) (bs : List Byte) :
    (f <$> x) bs = match x bs with
      | .ok (a, rest) => .ok (f a, rest)
      | .error e => .error e := by
  rw [map_eq_pure_bind, Dec.bind_apply]
  rfl

@[simp] theorem Dec.pure_apply (a : α) (bs : List Byte) : (pure a : Dec α) bs = .ok (a, bs) := rfl

@[simp] theorem byte_cons (b : Byte) (rest : List Byte) : byte (b :: rest) = .ok (b, rest) := rfl

theorem decode_cons (os as : Bool) (b : Byte) (rest : List Byte) :
    decode os as (b :: rest) = oneByte os as (b.toNat / 16) (b.toNat % 16) rest := rfl

end

/-! Numbers. -/

@[simp] theorem word_encWord (v : Word) (rest : List Byte) : word (encWord v ++ rest) = .ok (v, rest) := by
  have hv : v.extractLsb' 8 8 ++ v.extractLsb' 0 8 = v := by ext i; simp; grind
  simp [word, encWord, hv]

@[simp] theorem dword_encDword (v : Dword) (rest : List Byte) : dword (encDword v ++ rest) = .ok (v, rest) := by
  have hv : v.extractLsb' 24 8 ++ v.extractLsb' 16 8 ++ v.extractLsb' 8 8 ++ v.extractLsb' 0 8 = v := by
    ext i; simp; grind
  simp [dword, encDword, hv]

/-- A number that fits its size is read back. -/
theorem sized_encSized {size32 : Bool} {v : Dword} (h : fitsSize size32 v = true) (rest : List Byte) :
    sized size32 (encSized size32 v ++ rest) = .ok (v, rest) := by
  cases size32 with
  | true => simp [sized, encSized]
  | false =>
    have hv : (v.setWidth 16).setWidth 32 = v := by
      apply BitVec.eq_of_toNat_eq
      simp only [fitsSize, Bool.false_or, decide_eq_true_eq] at h
      rw [BitVec.toNat_setWidth, BitVec.toNat_setWidth, Nat.mod_eq_of_lt h, Nat.mod_eq_of_lt v.isLt]
    simp [sized, encSized, hv]

/-! Register numbers and the fields of a ModRM byte. -/

@[simp] theorem Reg.ofBits_bits (r : Reg) : Reg.ofBits r.bits = r := by cases r <;> rfl

@[simp] theorem Sreg.ofBits_bits (r : Sreg) : Sreg.ofBits r.bits = some r := by cases r <;> rfl

@[simp] theorem Base16.ofBits_bits (b : Base16) : Base16.ofBits b.bits = b := by cases b <;> rfl

theorem toNat_modrmByte (md : BitVec 2) (reg rm : BitVec 3) :
    (modrmByte md reg rm).toNat = 64 * md.toNat + 8 * reg.toNat + rm.toNat := by
  rw [modrmByte, BitVec.toNat_append, BitVec.toNat_append, ← Nat.shiftLeft_add_eq_or_of_lt rm.isLt,
    ← Nat.shiftLeft_add_eq_or_of_lt reg.isLt]
  omega

@[simp] theorem modrmMod_modrmByte (md : BitVec 2) (reg rm : BitVec 3) : modrmMod (modrmByte md reg rm) = md := by
  apply BitVec.eq_of_toNat_eq
  have := md.isLt
  rw [modrmMod, BitVec.extractLsb'_toNat, toNat_modrmByte, Nat.shiftRight_eq_div_pow]
  omega

@[simp] theorem modrmReg_modrmByte (md : BitVec 2) (reg rm : BitVec 3) : modrmReg (modrmByte md reg rm) = reg := by
  apply BitVec.eq_of_toNat_eq
  have := reg.isLt
  rw [modrmReg, BitVec.extractLsb'_toNat, toNat_modrmByte, Nat.shiftRight_eq_div_pow]
  omega

@[simp] theorem modrmRm_modrmByte (md : BitVec 2) (reg rm : BitVec 3) : modrmRm (modrmByte md reg rm) = rm := by
  apply BitVec.eq_of_toNat_eq
  have := rm.isLt
  rw [modrmRm, BitVec.extractLsb'_toNat, toNat_modrmByte, Nat.shiftRight_zero]
  omega

/-! Memory operands. -/

/-- The ModRM byte of a memory operand with reg field `g`. -/
def EA.head (g : BitVec 3) (ea : EA) : Byte := (encEa g ea).headD 0

/-- The bytes of a memory operand after its ModRM byte, in which the reg field has no part. -/
def EA.tail (ea : EA) : List Byte := (encEa 0 ea).tail

theorem encEa_eq (g : BitVec 3) (ea : EA) : encEa g ea = ea.head g :: ea.tail := by
  rcases ea with ⟨_ | b, d⟩ | ⟨_ | b, _ | ⟨i, ss⟩, d⟩
  case mem32.some.none => by_cases hb : b = .esp <;> simp [EA.head, EA.tail, encEa, hb]
  all_goals rfl

@[simp] theorem modrmReg_eaHead (g : BitVec 3) (ea : EA) : modrmReg (ea.head g) = g := by
  rcases ea with ⟨_ | b, d⟩ | ⟨_ | b, _ | ⟨i, ss⟩, d⟩
  case mem32.some.none => by_cases hb : b = .esp <;> simp [EA.head, encEa, hb]
  all_goals simp [EA.head, encEa]

/-- A memory form has no mod field 3. -/
theorem modrmMod_eaHead (g : BitVec 3) (ea : EA) : modrmMod (ea.head g) ≠ 3 := by
  rcases ea with ⟨_ | b, d⟩ | ⟨_ | b, _ | ⟨i, ss⟩, d⟩
  case mem32.some.none => by_cases hb : b = .esp <;> simp [EA.head, encEa, hb]
  all_goals simp [EA.head, encEa]

theorem Reg.bits_eq_four {r : Reg} : r.bits = 4#3 ↔ r = .esp := by cases r <;> decide

/-- A memory operand of the address size is read back. -/
theorem eaOperand_tail {as : Bool} {ea : EA} (h : ea.wf as = true) (g : BitVec 3) (rest : List Byte) :
    eaOperand as (ea.head g) (ea.tail ++ rest) = .ok (ea, rest) := by
  rcases ea with ⟨_ | b, d⟩ | ⟨_ | b, _ | ⟨i, ss⟩, d⟩ <;> simp [EA.wf] at h
  case mem16.none | mem16.some =>
    simp [EA.head, EA.tail, encEa, eaOperand, h, ea16, disp16]
  case mem32.none.none =>
    simp [EA.head, EA.tail, encEa, eaOperand, h, ea32]
  case mem32.none.some =>
    simp [EA.head, EA.tail, encEa, eaOperand, h, ea32, Reg.bits_eq_four]
  case mem32.some.none =>
    by_cases hb : b = .esp
    · simp [EA.head, EA.tail, encEa, eaOperand, h, ea32, disp32, hb, Reg.ofBits]
    · simp [EA.head, EA.tail, encEa, eaOperand, h, ea32, disp32, hb, Reg.bits_eq_four]
  case mem32.some.some =>
    simp [EA.head, EA.tail, encEa, eaOperand, h, ea32, disp32, Reg.bits_eq_four]

theorem memOperand_tail {as : Bool} {ea : EA} (h : ea.wf as = true) (g : BitVec 3) (rest : List Byte) :
    memOperand as (ea.head g) (ea.tail ++ rest) = .ok (ea, rest) := by
  rw [memOperand, if_neg (modrmMod_eaHead g ea), eaOperand_tail h]

/-! Register or memory operands. -/

/-- The ModRM byte of an r/m operand with reg field `g`. -/
def Rm.head (g : BitVec 3) : Rm → Byte
  | .reg r => modrmByte 3 g r.bits
  | .mem ea => ea.head g

/-- The bytes of an r/m operand after its ModRM byte. -/
def Rm.tail : Rm → List Byte
  | .reg _ => []
  | .mem ea => ea.tail

theorem encRm_eq (g : BitVec 3) (rm : Rm) : encRm g rm = rm.head g :: rm.tail := by
  cases rm with
  | reg r => rfl
  | mem ea => exact encEa_eq g ea

@[simp] theorem modrmReg_rmHead (g : BitVec 3) (rm : Rm) : modrmReg (rm.head g) = g := by
  cases rm with
  | reg r => exact modrmReg_modrmByte _ _ _
  | mem ea => exact modrmReg_eaHead g ea

/-- An r/m operand of the address size is read back. -/
theorem rmOperand_tail {as : Bool} {rm : Rm} (h : rm.wf as = true) (g : BitVec 3) (rest : List Byte) :
    rmOperand as (rm.head g) (rm.tail ++ rest) = .ok (rm, rest) := by
  cases rm with
  | reg r => simp [rmOperand, Rm.head, Rm.tail]
  | mem ea =>
    have h : ea.wf as = true := h
    rw [rmOperand, Rm.head, if_neg (modrmMod_eaHead g ea)]
    simp [Rm.tail, eaOperand_tail h]

/-! The shapes of an instruction's operands. -/

section
variable {os as size32 : Bool} {rm : Rm} {ea : EA} (g : BitVec 3) (rest : List Byte)

@[simp] theorem imm8_cons (f : Byte → Instr) (v : Byte) : imm8 f (v :: rest) = .ok (f v, rest) := rfl

@[simp] theorem imm16_encWord (f : Word → Instr) (v : Word) : imm16 f (encWord v ++ rest) = .ok (f v, rest) := by
  simp [imm16]

theorem immSized_encSized {v : Dword} (h : fitsSize size32 v = true) (f : Dword → Instr) :
    immSized size32 f (encSized size32 v ++ rest) = .ok (f v, rest) := by
  simp [immSized, sized_encSized h]

theorem rmReg_encRm (h : rm.wf as = true) (f : Rm → Reg → Instr) (r : Reg) :
    rmReg as f (encRm r.bits rm ++ rest) = .ok (f rm r, rest) := by
  simp [rmReg, encRm_eq, rmOperand_tail h]

theorem regRm_encRm (h : rm.wf as = true) (f : Reg → Rm → Instr) (r : Reg) :
    regRm as f (encRm r.bits rm ++ rest) = .ok (f r rm, rest) := rmReg_encRm rest h _ r

theorem regEa_encEa (h : ea.wf as = true) (f : Reg → EA → Instr) (r : Reg) :
    regEa as f (encEa r.bits ea ++ rest) = .ok (f r ea, rest) := by
  simp [regEa, encEa_eq, memOperand_tail h]

theorem rmOnly_encRm (h : rm.wf as = true) (f : Rm → Instr) :
    rmOnly as f (encRm g rm ++ rest) = .ok (f rm, rest) := by
  simp [rmOnly, encRm_eq, rmOperand_tail h]

theorem rmRegThen_encRm {α : Type} (h : rm.wf as = true) (imm : (α → Instr) → Dec Instr) (f : Rm → Reg → α → Instr)
    (r : Reg) : rmRegThen as imm f (encRm r.bits rm ++ rest) = imm (f rm r) rest := by
  simp [rmRegThen, encRm_eq, rmOperand_tail h]

theorem rmSreg_encRm (h : rm.wf as = true) (f : Rm → Sreg → Instr) (sr : Sreg) :
    rmSreg as f (encRm sr.bits rm ++ rest) = .ok (f rm sr, rest) := by
  simp [rmSreg, encRm_eq, rmOperand_tail h]

/-! Members of a group `d`, which the reg field `g` selects. -/

theorem group_encRm (d : Dec Instr) (h : rm.wf as = true) {f : Rm → Instr}
    (hd : ∀ m bs, modrmReg m = g → d (m :: bs) = groupRm as m f bs) : d (encRm g rm ++ rest) = .ok (f rm, rest) := by
  simp [encRm_eq, hd _ _ (modrmReg_rmHead g rm), groupRm, rmOperand_tail h]

theorem group_encEa (d : Dec Instr) (h : ea.wf as = true) {f : EA → Instr}
    (hd : ∀ m bs, modrmReg m = g → d (m :: bs) = groupEa as m f bs) : d (encEa g ea ++ rest) = .ok (f ea, rest) := by
  simp [encEa_eq, hd _ _ (modrmReg_eaHead g ea), groupEa, memOperand_tail h]

theorem group_encRm_imm8 (d : Dec Instr) (h : rm.wf as = true) {f : Rm → Byte → Instr} (v : Byte)
    (hd : ∀ m bs, modrmReg m = g → d (m :: bs) = groupRmThen as m imm8 f bs) :
    d (encRm g rm ++ [v] ++ rest) = .ok (f rm v, rest) := by
  simp [encRm_eq, hd _ _ (modrmReg_rmHead g rm), groupRmThen, rmOperand_tail h]

theorem group_encRm_immSized (d : Dec Instr) {v : Dword} (h : (rm.wf as && fitsSize os v) = true)
    {f : Rm → Dword → Instr} (hd : ∀ m bs, modrmReg m = g → d (m :: bs) = groupRmThen as m (immSized os) f bs) :
    d (encRm g rm ++ encSized os v ++ rest) = .ok (f rm v, rest) := by
  obtain ⟨hrm, hv⟩ := Bool.and_eq_true_iff.1 h
  simp [encRm_eq, hd _ _ (modrmReg_rmHead g rm), groupRmThen, rmOperand_tail hrm, immSized_encSized _ hv]

/-! Other operands. -/

theorem rmRegThen_encRm_imm8 (h : rm.wf as = true) (f : Rm → Reg → Byte → Instr) (r : Reg) (v : Byte) :
    rmRegThen as imm8 f (encRm r.bits rm ++ [v] ++ rest) = .ok (f rm r v, rest) := by
  rw [List.append_assoc, rmRegThen_encRm _ h]
  rfl

theorem rmRegThen_encRm_immSized {v : Dword} (h : (rm.wf as && fitsSize os v) = true)
    (f : Rm → Reg → Dword → Instr) (r : Reg) :
    rmRegThen as (immSized os) f (encRm r.bits rm ++ encSized os v ++ rest) = .ok (f rm r v, rest) := by
  obtain ⟨hrm, hv⟩ := Bool.and_eq_true_iff.1 h
  rw [List.append_assoc, rmRegThen_encRm _ hrm, immSized_encSized rest hv]

theorem sregRm_encRm {sr : Sreg} (h : (decide (sr ≠ .cs) && rm.wf as) = true) (f : Sreg → Rm → Instr) :
    sregRm as f (encRm sr.bits rm ++ rest) = .ok (f sr rm, rest) := by
  obtain ⟨hsr, hrm⟩ := Bool.and_eq_true_iff.1 h
  cases sr <;> simp [sregRm, encRm_eq, rmOperand_tail hrm] at hsr ⊢

theorem escOperands_encRm (h : rm.wf as = true) (op ext : BitVec 3) :
    escOperands as op (encRm ext rm ++ rest) = .ok (.esc op ext rm, rest) := by
  simp [escOperands, encRm_eq, rmOperand_tail h]

theorem enterOperands_encWord (size : Word) (level : Byte) (f : Word → Byte → Instr) :
    enterOperands f (encWord size ++ [level] ++ rest) = .ok (f size level, rest) := by
  simp [enterOperands]

theorem specialRead_modrmByte (f : Reg → BitVec 3 → Instr) (r : Reg) (n : BitVec 3) :
    specialRead f (modrmByte 3 n r.bits :: rest) = .ok (f r n, rest) := by
  simp [specialRead]

theorem specialWrite_modrmByte (f : BitVec 3 → Reg → Instr) (r : Reg) (n : BitVec 3) :
    specialWrite f (modrmByte 3 n r.bits :: rest) = .ok (f n r, rest) := by
  simp [specialWrite]

theorem farPtr_encSized {off : Dword} (h : fitsSize os off = true) (sel : Word) (f : Dword → Word → Instr) :
    farPtr os f (encSized os off ++ encWord sel ++ rest) = .ok (f off sel, rest) := by
  simp [farPtr, sized_encSized h]

end
/-! A register or another number in the opcode. -/

theorem Reg.exists_bits_eq (n : BitVec 3) : ∃ r : Reg, r.bits = n := ⟨.ofBits n, by revert n; decide⟩

theorem decode_opcodePlus_esc (os as : Bool) (op : BitVec 3) (rest : List Byte) :
    decode os as (opcodePlus 0xD8 op :: rest) = escOperands as op rest := by
  obtain ⟨r, rfl⟩ := Reg.exists_bits_eq op
  cases r <;> rfl

/-- Settles O56, by the shape of the instruction's encoding. -/
theorem decodeEncodeAgree : Obligations.DecodeEncodeAgree := by
  intro os as i rest h
  cases i with
  -- no operand
  | pushEs | pushCs | pushSs | pushDs | pushFs | pushGs | popEs | popSs | popDs | popFs | popGs | daa | das | aaa |
  aas | pusha | popa | insb | insv | outsb | outsv | nop | cbw | cwd | wait | pushf | popf | sahf | lahf | movsb |
  movsv | cmpsb | cmpsv | stosb | stosv | lodsb | lodsv | scasb | scasv | retNear | leave | retFar | int3 | into |
  iret | xlat | inAlDx | inEaxDx | outDxAl | outDxEax | hlt | cmc | clc | stc | cli | sti | cld | std | clts | segEs |
  segCs | segSs | segDs | segFs | segGs | opSize | addrSize | lockPrefix | repne | rep =>
    rfl
  -- an immediate of a byte
  | addAlImm8 | orAlImm8 | adcAlImm8 | sbbAlImm8 | andAlImm8 | subAlImm8 | xorAlImm8 | cmpAlImm8 | pushSimm8 | joRel8
  | jnoRel8 | jbRel8 | jaeRel8 | jeRel8 | jneRel8 | jbeRel8 | jaRel8 | jsRel8 | jnsRel8 | jpRel8 | jnpRel8 | jlRel8 |
  jgeRel8 | jleRel8 | jgRel8 | testAlImm8 | intImm8 | aam | aad | loopne | loope | loop | jcxz | inAlImm8 | inEaxImm8
  | outImm8Al | outImm8Eax | jmpRel8 =>
    rfl
  | retNearImm16 | retFarImm16 =>
    exact imm16_encWord rest _ _
  -- an immediate by size
  | addEaxImmv | orEaxImmv | adcEaxImmv | sbbEaxImmv | andEaxImmv | subEaxImmv | xorEaxImmv | cmpEaxImmv | pushImmv |
  testEaxImmv | callRelv | jmpRelv | joRelv | jnoRelv | jbRelv | jaeRelv | jeRelv | jneRelv | jbeRelv | jaRelv |
  jsRelv | jnsRelv | jpRelv | jnpRelv | jlRelv | jgeRelv | jleRelv | jgRelv | movAlMoffs8 | movEaxMoffsv | movMoffs8Al
  | movMoffsvEax =>
    exact immSized_encSized rest h _
  -- r/m and a register
  | addRm8R8 | addRmvRv | orRm8R8 | orRmvRv | adcRm8R8 | adcRmvRv | sbbRm8R8 | sbbRmvRv | andRm8R8 | andRmvRv |
  subRm8R8 | subRmvRv | xorRm8R8 | xorRmvRv | cmpRm8R8 | cmpRmvRv | arpl | testRm8R8 | testRmvRv | xchgRm8R8 |
  xchgRmvRv | movRm8R8 | movRmvRv | btRmvRv | btsRmvRv | btrRmvRv | btcRmvRv | shldCl | shrdCl =>
    exact rmReg_encRm rest h _ _
  | addR8Rm8 | addRvRmv | orR8Rm8 | orRvRmv | adcR8Rm8 | adcRvRmv | sbbR8Rm8 | sbbRvRmv | andR8Rm8 | andRvRmv |
  subR8Rm8 | subRvRmv | xorR8Rm8 | xorRvRmv | cmpR8Rm8 | cmpRvRmv | movR8Rm8 | movRvRmv | lar | lsl | imulRvRmv |
  movzxRvRm8 | movzxR32Rm16 | bsf | bsr | movsxRvRm8 | movsxR32Rm16 =>
    exact regRm_encRm rest h _ _
  | bound | lea | les | lds | lss | lfs | lgs =>
    exact regEa_encEa rest h _ _
  | addRm8Imm8 | orRm8Imm8 | adcRm8Imm8 | sbbRm8Imm8 | andRm8Imm8 | subRm8Imm8 | xorRm8Imm8 | cmpRm8Imm8 =>
    exact group_encRm_imm8 _ rest (group80 as) h _ fun m bs hm => by simp [group80, hm]
  | addRmvImmv | orRmvImmv | adcRmvImmv | sbbRmvImmv | andRmvImmv | subRmvImmv | xorRmvImmv | cmpRmvImmv =>
    exact group_encRm_immSized _ rest (group81 os as) h fun m bs hm => by simp [group81, hm]
  | addRmvSimm8 | orRmvSimm8 | adcRmvSimm8 | sbbRmvSimm8 | andRmvSimm8 | subRmvSimm8 | xorRmvSimm8 | cmpRmvSimm8 =>
    exact group_encRm_imm8 _ rest (group83 as) h _ fun m bs hm => by simp [group83, hm]
  | popRmv =>
    exact group_encRm _ rest (group8F as) h fun m bs hm => by simp [group8F, hm]
  | rolRm8Imm8 | rorRm8Imm8 | rclRm8Imm8 | rcrRm8Imm8 | shlRm8Imm8 | shrRm8Imm8 | sarRm8Imm8 =>
    exact group_encRm_imm8 _ rest (groupC0 as) h _ fun m bs hm => by simp [groupC0, hm]
  | rolRmvImm8 | rorRmvImm8 | rclRmvImm8 | rcrRmvImm8 | shlRmvImm8 | shrRmvImm8 | sarRmvImm8 =>
    exact group_encRm_imm8 _ rest (groupC1 as) h _ fun m bs hm => by simp [groupC1, hm]
  | movRm8Imm8 =>
    exact group_encRm_imm8 _ rest (groupC6 as) h _ fun m bs hm => by simp [groupC6, hm]
  | movRmvImmv =>
    exact group_encRm_immSized _ rest (groupC7 os as) h fun m bs hm => by simp [groupC7, hm]
  | rolRm8One | rorRm8One | rclRm8One | rcrRm8One | shlRm8One | shrRm8One | sarRm8One =>
    exact group_encRm _ rest (groupD0 as) h fun m bs hm => by simp [groupD0, hm]
  | rolRmvOne | rorRmvOne | rclRmvOne | rcrRmvOne | shlRmvOne | shrRmvOne | sarRmvOne =>
    exact group_encRm _ rest (groupD1 as) h fun m bs hm => by simp [groupD1, hm]
  | rolRm8Cl | rorRm8Cl | rclRm8Cl | rcrRm8Cl | shlRm8Cl | shrRm8Cl | sarRm8Cl =>
    exact group_encRm _ rest (groupD2 as) h fun m bs hm => by simp [groupD2, hm]
  | rolRmvCl | rorRmvCl | rclRmvCl | rcrRmvCl | shlRmvCl | shrRmvCl | sarRmvCl =>
    exact group_encRm _ rest (groupD3 as) h fun m bs hm => by simp [groupD3, hm]
  | notRm8 | negRm8 | mulRm8 | imulRm8 | divRm8 | idivRm8 =>
    exact group_encRm _ rest (groupF6 as) h fun m bs hm => by simp [groupF6, hm]
  | testRm8Imm8 =>
    exact group_encRm_imm8 _ rest (groupF6 as) h _ fun m bs hm => by simp [groupF6, hm]
  | notRmv | negRmv | mulRmv | imulRmv | divRmv | idivRmv =>
    exact group_encRm _ rest (groupF7 os as) h fun m bs hm => by simp [groupF7, hm]
  | testRmvImmv =>
    exact group_encRm_immSized _ rest (groupF7 os as) h fun m bs hm => by simp [groupF7, hm]
  | incRm8 | decRm8 =>
    exact group_encRm _ rest (groupFE as) h fun m bs hm => by simp [groupFE, hm]
  | incRmv | decRmv | callRmv | jmpRmv | pushRmv =>
    exact group_encRm _ rest (groupFF as) h fun m bs hm => by simp [groupFF, hm]
  | callM | jmpM =>
    exact group_encEa _ rest (groupFF as) h fun m bs hm => by simp [groupFF, hm]
  | sldt | str | lldt | ltr | verr | verw =>
    exact group_encRm _ rest (group0F00 as) h fun m bs hm => by simp [group0F00, hm]
  | smsw | lmsw =>
    exact group_encRm _ rest (group0F01 as) h fun m bs hm => by simp [group0F01, hm]
  | sgdt | sidt | lgdt | lidt =>
    exact group_encEa _ rest (group0F01 as) h fun m bs hm => by simp [group0F01, hm]
  | btRmvImm8 | btsRmvImm8 | btrRmvImm8 | btcRmvImm8 =>
    exact group_encRm_imm8 _ rest (group0FBA as) h _ fun m bs hm => by simp [group0FBA, hm]
  | seto | setno | setb | setae | sete | setne | setbe | seta | sets | setns | setp | setnp | setl | setge | setle |
  setg =>
    exact rmOnly_encRm _ rest h _
  -- other operands
  | callPtr | jmpPtr =>
    exact farPtr_encSized rest h _ _
  | imulRvRmvSimm8 =>
    exact rmRegThen_encRm_imm8 rest h (fun rm r => .imulRvRmvSimm8 r rm) _ _
  | shldImm8 | shrdImm8 =>
    exact rmRegThen_encRm_imm8 rest h _ _ _
  | imulRvRmvImmv =>
    exact rmRegThen_encRm_immSized rest h (fun rm r => .imulRvRmvImmv r rm) _
  | movRm16Sreg =>
    exact rmSreg_encRm rest h _ _
  | movSregRm16 =>
    exact sregRm_encRm rest h _
  | enter =>
    exact enterOperands_encWord rest _ _ _
  | movR32Cr | movR32Dr | movR32Tr =>
    exact specialRead_modrmByte rest _ _ _
  | movCrR32 | movDrR32 | movTrR32 =>
    exact specialWrite_modrmByte rest _ _ _
  -- a register or a number in the opcode
  | incRv r | decRv r | pushRv r | popRv r | movR8Imm8 r => cases r <;> rfl
  | movRvImmv r v => cases r <;> exact immSized_encSized rest h _
  | xchgEaxRv r =>
    cases r with
    | eax => exact absurd rfl (of_decide_eq_true (p := Reg.eax ≠ .eax) h)
    | _ => rfl
  | esc op ext rm =>
    change decode os as (opcodePlus 0xD8 op :: (encRm ext rm ++ rest)) = _
    rw [decode_opcodePlus_esc]
    exact escOperands_encRm rest h op ext
end Sys2Proof

/-! The invariant (`Inv`) at every moment of a step. What an instruction does is a sequence of operations. Most of them
leave PE, PG, VM and CPL alone (`Steady`); the few that write one of them keep the invariant where the mode is known
(`Keeps`). One rule per operation, in the order of the model's definitions; the simp rules are those for the bodies of
instructions. -/

namespace Sys2Proof.Machine

variable {α β : Type}

/-! What is left alone. -/

/-- A state with memory and TLB in the form of the invariant, and with PE, PG, VM and CPL as in another. -/
structure Held (s t : State) : Prop where
  mem : s.mem.wf = true → t.mem.wf = true
  tlb : s.tlb.length = 32 → t.tlb.length = 32
  pe : t.cr0.pe = s.cr0.pe
  pg : t.cr0.pg = s.cr0.pg
  vm : t.flags.vm = s.flags.vm
  cpl : t.cpl = s.cpl

theorem Held.refl (s : State) : Held s s := ⟨id, id, rfl, rfl, rfl, rfl⟩

theorem Held.trans {s t u : State} (h : Held s t) (k : Held t u) : Held s u :=
  ⟨k.mem ∘ h.mem, k.tlb ∘ h.tlb, k.pe.trans h.pe, k.pg.trans h.pg, k.vm.trans h.vm, k.cpl.trans h.cpl⟩

/-- What is the same in two such states. -/
def State.standing (s : State) : Memory × List (Option TlbEntry) × Bool × Bool × Bool × BitVec 2 :=
  (s.mem, s.tlb, s.cr0.pe, s.cr0.pg, s.flags.vm, s.cpl)

theorem Held.of_eq {s t : State} (h : t.standing = s.standing) : Held s t := by
  simp only [State.standing, Prod.mk.injEq] at h
  obtain ⟨hm, ht, hpe, hpg, hvm, hcpl⟩ := h
  exact ⟨fun e => hm ▸ e, fun e => ht ▸ e, hpe, hpg, hvm, hcpl⟩

theorem Bused.held {s u : State} (h : Bused s u) : Held s u := by
  refine ⟨h.wf, ?_, ?_, ?_, ?_, ?_⟩ <;> rw [h.rest]
  exact id

theorem Touched.held {s u : State} (h : Touched s u) : Held s u := by
  refine ⟨h.wf, h.tlb, ?_, ?_, ?_, ?_⟩ <;> rw [h.rest]

/-- A meaning that leaves memory and TLB in form and PE, PG, VM and CPL alone, whether it completes or stops short. -/
def Steady (x : M α) : Prop := ∀ s, Held s (M.last x s)

theorem Steady.of_ok {x : M α} (hx : Steady x) {s t : State} {a : α} (h : x s = .ok a t) : Held s t :=
  M.last_of_ok h ▸ hx s

theorem Steady.of_error {x : M α} (hx : Steady x) {s t : State} {e : Trap} (h : x s = .error e t) : Held s t :=
  M.last_of_error h ▸ hx s

theorem Touches.steady {x : M α} (hx : Touches x) : Steady x := by
  intro s
  cases e : x s with
  | ok a t => exact M.last_of_ok e ▸ ((hx s).1 _ _ e).held
  | error r t => exact M.last_of_error e ▸ ((hx s).2 _ _ e).held

theorem Steady.of_bused {x : M α} (hx : ∀ s, ∃ a u, x s = .ok a u ∧ Bused s u) : Steady x := by
  intro s
  obtain ⟨a, u, e, h⟩ := hx s
  exact M.last_of_ok e ▸ h.held

theorem Steady.same {x : M α} (hx : ∀ s, (M.last x s).standing = s.standing) : Steady x := fun s => .of_eq (hx s)

theorem Steady.bind {x : M α} {f : α → M β} (hx : Steady x) (hf : ∀ a, Steady (f a)) : Steady (x >>= f) := by
  intro s
  cases e : x s with
  | ok a t => rw [M.last, M.bind_ok e]; exact (hx.of_ok e).trans (hf a t)
  | error r t => rw [M.last_of_error (M.bind_error e f)]; exact hx.of_error e

theorem Steady.modify_bind {f : State → State} {k : Unit → M β} (hf : ∀ s, Held s (f s)) (hk : ∀ a, Steady (k a)) :
    Steady ((modify f : M Unit) >>= k) := .bind hf hk

theorem Steady.modify {f : State → State} (hf : ∀ s, Held s (f s)) : Steady (modify f : M Unit) := hf

theorem Steady.require_bind {b : Bool} {e : Exn} {k : Unit → M β} (hk : ∀ a, Steady (k a)) :
    Steady (require b e >>= k) := .bind (Touches.require b e).steady hk

theorem Steady.require (b : Bool) (e : Exn) : Steady (require b e) := (Touches.require b e).steady

@[simp] theorem Steady.pure (a : α) : Steady (pure a : M α) := .refl

theorem Steady.get : Steady (get : M State) := .refl

theorem Steady.raise (e : Exn) : Steady (raise e : M α) := .refl

theorem Steady.refuse (r : Refusal) : Steady (refuse r : M α) := .refl

theorem Steady.draw (n : Nat) : Steady (draw n) := .same fun _ => rfl

theorem Steady.map (g : α → β) {x : M α} (hx : Steady x) : Steady (g <$> x) := by
  rw [map_eq_pure_bind]
  exact hx.bind fun a => .pure (g a)

theorem Steady.ite {c : Prop} [Decidable c] {x y : M α} (hx : Steady x) (hy : Steady y) :
    Steady (if c then x else y) := by
  split <;> assumption

/-- Two ways to one continuation. -/
theorem Steady.branch {c : Prop} [Decidable c] {x y : M α} {k : α → M β} (hx : Steady x) (hy : Steady y)
    (hk : ∀ a, Steady (k a)) : Steady (if c then x >>= k else y >>= k) := .ite (hx.bind hk) (hy.bind hk)

/-- Something done on one condition before what is done in any case. -/
theorem Steady.when {c : Prop} [Decidable c] {x : M Unit} {k : Unit → M β} (hx : Steady x)
    (hk : ∀ a, Steady (k a)) : Steady (if c then x >>= k else k ()) := .ite (hx.bind hk) (hk ())

theorem Steady.unless {c : Prop} [Decidable c] {x : M Unit} {k : Unit → M β} (hx : Steady x)
    (hk : ∀ a, Steady (k a)) : Steady (if c then k () else x >>= k) := .ite (hk ()) (hx.bind hk)

/-- A meaning that ends with all six as in `s` when it begins so. -/
def SteadyFrom (s : State) (x : M α) : Prop := ∀ u, Held s u → Held s (M.last x u)

section
variable {s : State}

theorem Steady.from {x : M α} (hx : Steady x) : SteadyFrom s x := fun u h => h.trans (hx u)

theorem SteadyFrom.pure (a : α) : SteadyFrom s (pure a : M α) := (Steady.pure a).from

theorem SteadyFrom.bind {x : M α} {f : α → M β} (hx : SteadyFrom s x) (hf : ∀ a, SteadyFrom s (f a)) :
    SteadyFrom s (x >>= f) := by
  intro u h
  have hu := hx u h
  cases e : x u with
  | ok a t => rw [M.last, M.bind_ok e]; exact hf a t (M.last_of_ok e ▸ hu)
  | error r t => rw [M.last_of_error (M.bind_error e f)]; exact M.last_of_error e ▸ hu

theorem SteadyFrom.after {x : M α} {f : α → M β} (hx : Steady x) (hf : ∀ a, SteadyFrom s (f a)) :
    SteadyFrom s (x >>= f) := .bind hx.from hf

theorem SteadyFrom.modify_bind {f : State → State} {k : Unit → M β} (hf : ∀ u, Held s u → Held s (f u))
    (hk : ∀ a, SteadyFrom s (k a)) : SteadyFrom s ((modify f : M Unit) >>= k) := .bind hf hk

/-- A meaning that looks at the state it begins in. -/
theorem Steady.get_from {f : State → M β} (hf : ∀ s, SteadyFrom s (f s)) : Steady ((MonadState.get : M State) >>= f) :=
  fun s => hf s s (.refl s)

end

/-- New flags with VM as it was. -/
theorem Held.with_flags {s u : State} (h : Held s u) {f : Flags} (hf : f.vm = s.flags.vm) :
    Held s { u with flags := f } := ⟨h.mem, h.tlb, h.pe, h.pg, hf, h.cpl⟩

/-! Memory, stack and ports. -/

theorem Steady.linLocate (lin : Dword) (n : Nat) (write sys : Bool) : Steady (linLocate lin n write sys) :=
  (Touches.linLocate lin n write sys).steady

theorem Steady.sysRead (lin : Dword) (n : Nat) : Steady (sysRead lin n) := (Touches.sysRead lin n).steady

theorem Steady.sysRead16 (lin : Dword) : Steady (sysRead16 lin) := (Touches.sysRead16 lin).steady

theorem Steady.memRead (ps : List Dword) : Steady (memRead ps) := (Touches.memRead ps).steady

theorem Steady.memReadAll (ls : List (List Dword)) : Steady (memReadAll ls) := (Touches.memReadAll ls).steady

theorem Steady.memWrite (ps : List Dword) (v : Nat) : Steady (memWrite ps v) :=
  .of_bused fun s => ⟨(), memWrite_bused ps v s⟩

theorem Steady.lockedModify (ps : List Dword) (f : Nat → Nat) : Steady (lockedModify ps f) :=
  .of_bused fun s => ⟨(), lockedModify_bused ps f s⟩

theorem Steady.ioRead (port : Nat) (w : Width) : Steady (ioRead port w) := .of_bused (ioRead_bused port w)

theorem Steady.ioWrite (port : Nat) (w : Width) (v : BitVec w.bits) : Steady (ioWrite port w v) :=
  .of_bused fun s => ⟨(), ioWrite_bused port w v s⟩

theorem Steady.ioPermitted (port n : Nat) : Steady (ioPermitted port n) := (Touches.ioPermitted port n).steady

theorem Steady.memWriteAll (ls : List (List Dword)) (vs : List Nat) : Steady (memWriteAll ls vs) := by
  induction ls generalizing vs with
  | nil => exact .pure ()
  | cons p ps ih =>
    cases vs with
    | nil => exact .pure ()
    | cons v vs => exact .bind (.memWrite p v) fun _ => ih vs

theorem Steady.setStackPtr (v : Dword) : Steady (setStackPtr v) := .same fun _ => rfl

theorem Steady.moveStackPtr (v : Dword) : Steady (moveStackPtr v) := .same fun _ => rfl

theorem Steady.jumpTo (off : Dword) : Steady (jumpTo off) := .same fun _ => rfl

theorem Steady.advance : Steady advance := .same fun _ => rfl

theorem Steady.pushLocate (n k : Nat) : Steady (pushLocate n k) := (Touches.pushLocate n k).steady

theorem Steady.popLocate (n k : Nat) : Steady (popLocate n k) := (Touches.popLocate n k).steady

theorem Steady.locatePushes (n count k : Nat) : Steady (locatePushes n count k) :=
  (Touches.locatePushes n count k).steady

theorem Steady.locateItems (n count k : Nat) : Steady (locateItems n count k) :=
  (Touches.locateItems n count k).steady

theorem Steady.stackItem (n k : Nat) : Steady (stackItem n k) := (Touches.stackItem n k).steady

theorem Steady.stackItems (n count k : Nat) : Steady (stackItems n count k) := (Touches.stackItems n count k).steady

theorem Steady.peek (w : Width) (k : Nat) : Steady (peek w k) := (Touches.peek w k).steady

theorem Steady.requireRoom (n count : Nat) : Steady (requireRoom n count) := by
  refine .bind .get fun s => ?_
  split
  · exact .raise _
  · exact .pure _

theorem Steady.requireStack (n : Nat) : Steady (requireStack n) := by
  refine .bind .get fun s => ?_
  split
  · exact .raise _
  · exact .pure _

theorem Steady.pushAll (n : Nat) (vs : List Nat) : Steady (pushAll n vs) :=
  .bind (.locatePushes n _ 1) fun _ => .bind (.memWriteAll _ vs) fun _ => .moveStackPtr _

@[simp] theorem Steady.push (w : Width) (v : BitVec w.bits) : Steady (push w v) :=
  .bind (.pushLocate _ 1) fun _ => .bind (.memWrite _ _) fun _ => .moveStackPtr _

theorem Steady.pop (w : Width) : Steady (pop w) :=
  .bind (.peek w 0) fun _ => .bind (.moveStackPtr _) fun _ => .pure _

/-! Descriptors and segment registers. -/

theorem Steady.setSeg (r : Sreg) (v : SegReg) : Steady (setSeg r v) := .same fun _ => rfl

theorem Steady.descAddr (sel : Word) (f : Word → Exn) : Steady (descAddr sel f) :=
  .bind .get fun _ => .ite (.require_bind fun _ => .pure _) (.require_bind fun _ => .pure _)

theorem Steady.readDesc (a : Dword) : Steady (readDesc a) := .bind (.sysRead a 8) fun _ => .pure _

theorem Steady.findDesc (sel : Word) (f : Word → Exn) : Steady (findDesc sel f) :=
  .bind (.descAddr sel f) fun a => .bind (.readDesc a) fun _ => .pure _

theorem Steady.locateAccessed (a : Dword) (d : Descriptor) : Steady (locateAccessed a d) :=
  .ite (.pure _) (.linLocate _ _ _ _)

theorem Steady.markAccessed (ps : List Dword) : Steady (markAccessed ps) := .ite (.pure _) (.lockedModify _ _)

theorem Steady.setAccessed (a : Dword) (d : Descriptor) : Steady (setAccessed a d) :=
  .bind (.locateAccessed a d) fun ps => .markAccessed ps

theorem Steady.loadDataSeg (sr : Sreg) (sel : Word) (f : Word → Exn) : Steady (loadDataSeg sr sel f) :=
  .bind .get fun _ => .ite (.setSeg _ _) <|
    .bind (.findDesc sel f) fun _ => .require_bind fun _ => .require_bind fun _ =>
    .require_bind fun _ => .bind (.setAccessed _ _) fun _ => .setSeg _ _

theorem Steady.loadSS (sel : Word) (cpl : BitVec 2) : Steady (loadSS sel cpl) :=
  .require_bind fun _ => .bind (.findDesc sel _) fun _ => .require_bind fun _ =>
    .require_bind fun _ => .require_bind fun _ => .require_bind fun _ =>
    .bind (.setAccessed _ _) fun _ => .setSeg _ _

theorem Steady.loadSeg (sr : Sreg) (sel : Word) : Steady (loadSeg sr sel) :=
  .bind .get fun _ => .ite (.ite (.loadSS _ _) (.loadDataSeg _ _ _)) (.ite (.setSeg _ _) (.setSeg _ _))

theorem Steady.inhibitAfterSS (sr : Sreg) : Steady (inhibitAfterSS sr) := .ite (.modify fun _ => .of_eq rfl) (.pure ())

theorem Steady.loadCS8086 (sel : Word) : Steady (loadCS8086 sel) := .same fun _ => rfl

theorem Steady.farLoad8086 (sel : Word) (off : Dword) : Steady (farLoad8086 sel off) :=
  .bind .get fun _ => .require_bind fun _ => .bind (.loadCS8086 sel) fun _ => .jumpTo off

theorem Steady.innerStack (p : BitVec 2) : Steady (innerStack p) :=
  .bind .get fun _ => .require_bind fun _ => .bind (.linLocate _ _ _ _) fun espAt =>
    .bind (.linLocate _ _ _ _) fun selAt => .bind (.map _ (.memRead espAt)) fun _ =>
    .bind (.map _ (.memRead selAt)) fun _ => .require_bind fun _ =>
    .bind (.findDesc _ _) fun _ => .require_bind fun _ => .require_bind fun _ =>
    .require_bind fun _ => .pure _

theorem Steady.switchStack (i : InnerStack) : Steady (switchStack i) := .same fun _ => rfl

theorem Steady.validateDataSegs : Steady validateDataSegs := .same fun _ => rfl

theorem Steady.selectorSlot (wide : Bool) (sel : Word) : Steady (selectorSlot wide sel) :=
  .ite (.bind (.draw 16) fun _ => .pure _) (.pure _)

/-! The task switch (60_exceptions.md R670): it writes TS and no other bit of CR0. -/

theorem Steady.locateFields (base : Dword) (write : Bool) (fs : List (Nat × Nat)) :
    Steady (locateFields base write fs) := by
  induction fs with
  | nil => exact .pure _
  | cons f fs ih => exact .bind (.linLocate _ _ _ _) fun _ => ih.bind fun _ => .pure _

theorem Steady.selectorSlots (ws : List Word) : Steady (selectorSlots ws) := by
  induction ws with
  | nil => exact .pure _
  | cons w ws ih => exact .bind (.selectorSlot _ _) fun _ => ih.bind fun _ => .pure _

theorem Steady.savedValues (is386 : Bool) (s : State) (fl : Flags) : Steady (savedValues is386 s fl) :=
  .ite (.bind (.selectorSlots _) fun _ => .pure _) (.pure _)

theorem Steady.loadedReg (is386 : Bool) (v : Nat) : Steady (loadedReg is386 v) :=
  .ite (.pure _) (.bind (.draw 16) fun _ => .pure _)

theorem Steady.loadTaskLdt (ldt : Word) : Steady (loadTaskLdt ldt) :=
  .ite (.pure ()) <| .require_bind fun _ => .bind (.findDesc _ _) fun _ =>
    .require_bind fun _ => .require_bind fun _ => .modify fun _ => .of_eq rfl

theorem Steady.loadTaskSS (ss : Word) : Steady (loadTaskSS ss) :=
  .bind .get fun _ => .require_bind fun _ => .bind (.findDesc _ _) fun _ =>
    .require_bind fun _ => .require_bind fun _ => .bind (.setAccessed _ _) fun _ =>
    .setSeg _ _

theorem Steady.loadTask8086 : Steady loadTask8086 := .same fun _ => rfl

theorem Steady.changeTypeByte (ps : List Dword) (clear set_ : Byte) : Steady (changeTypeByte ps clear set_) :=
  .lockedModify _ _

/-! Taking an exception or interrupt, and returns. -/

theorem Steady.codeSlot (wide : Bool) (code : Option Word) : Steady (codeSlot wide code) := by
  cases code with
  | none => exact .pure _
  | some c => exact .bind (.selectorSlot wide c) fun _ => .pure _

/-- IRET in Real Mode and in Virtual 8086 Mode leaves VM as it finds it. -/
theorem Steady.iret8086 : Steady iret8086 :=
  .get_from fun _ => .after (.require _ _) fun _ => .after (.requireStack _) fun _ => .after (.stackItems _ _ _)
    fun _ => .after (.farLoad8086 _ _) fun _ => .after (.moveStackPtr _) fun _ =>
    .modify_bind (fun _ h => ⟨h.mem, h.tlb, h.pe, h.pg, rfl, h.cpl⟩) fun _ => .pure _

theorem Steady.endNmi : Steady endNmi := .same fun _ => rfl

theorem Steady.errorCode (e : Exn) : Steady (errorCode e) := by
  cases e <;> exact .same fun _ => rfl

theorem Steady.nextReturn (f : Failure) (ret : Dword) : Steady (nextReturn f ret) := .same fun _ => rfl

/-! Operands and flags. -/

theorem Steady.getReg (w : Width) (r : Reg) : Steady (getReg w r) := .same fun _ => rfl

@[simp] theorem Steady.setReg (w : Width) (r : Reg) (v : BitVec w.bits) : Steady (setReg w r v) := .same fun _ => rfl

theorem Steady.segRead (sr : Sreg) (off : Dword) (w : Width) : Steady (segRead sr off w) :=
  .bind (Touches.segLocate _ _ _ _).steady fun ps => .bind (.memRead ps) fun _ => .pure _

theorem Steady.locateEa (ea : EA) (k n : Nat) (write : Bool) : Steady (locateEa ea k n write) :=
  (Touches.locateEa ea k n write).steady

theorem Steady.readParts (ea : EA) (n m : Nat) : Steady (readParts ea n m) := (Touches.readParts ea n m).steady

theorem Steady.readFar (ea : EA) : Steady (readFar ea) := (Touches.readFar ea).steady

theorem Steady.locateMoffs (off : Dword) (n : Nat) (write : Bool) : Steady (locateMoffs off n write) :=
  (Touches.locateMoffs off n write).steady

theorem Steady.locateSource (w : Width) : Steady (locateSource w) := (Touches.locateSource w).steady

theorem Steady.locateDest (w : Width) (write : Bool) : Steady (locateDest w write) :=
  (Touches.locateDest w write).steady

theorem Steady.locate (w : Width) (rm : Rm) (write : Bool) : Steady (locate w rm write) :=
  (Touches.locate w rm write).steady

theorem Steady.getPlace (w : Width) (p : Place) : Steady (getPlace w p) := (Touches.getPlace w p).steady

theorem Steady.getPlaceToWrite (w : Width) (lock : Bool) (p : Place) : Steady (getPlaceToWrite w lock p) :=
  (Touches.getPlaceToWrite w lock p).steady

theorem Steady.readRm (w : Width) (rm : Rm) : Steady (readRm w rm) := (Touches.readRm w rm).steady

theorem Steady.putPlace (w : Width) (p : Place) (v : BitVec w.bits) : Steady (putPlace w p v) := by
  cases p with
  | reg r => exact .setReg w r v
  | mem ps => exact .memWrite ps v.toNat

@[simp] theorem Steady.writeRm (w : Width) (rm : Rm) (v : BitVec w.bits) : Steady (writeRm w rm v) :=
  .bind (.locate w rm true) fun p => .putPlace w p v

theorem Steady.writeRm16 (rm : Rm) (v : Word) : Steady (writeRm16 rm v) := by
  refine .bind .get fun _ => ?_
  cases rm with
  | reg r => exact .ite (.bind (.draw 16) fun _ => .setReg _ _ _) (.setReg _ _ _)
  | mem ea => exact .writeRm _ _ _

theorem Steady.addAsReg (r : Reg) (v : Dword) : Steady (addAsReg r v) := .same fun _ => rfl

theorem Steady.stepPointer (w : Width) (r : Reg) : Steady (stepPointer w r) := .same fun _ => rfl

theorem Steady.readValue (w : Width) (ps : List Dword) : Steady (readValue w ps) :=
  .bind (.memRead ps) fun _ => .pure _

@[simp] theorem Steady.updateFlags {g : Flags → Flags} (hg : ∀ f, (g f).vm = f.vm) : Steady (updateFlags g) :=
  fun s => ⟨id, id, rfl, rfl, hg s.flags, rfl⟩

@[simp] theorem Steady.opAdd {n : Nat} (a b : BitVec n) : Steady (opAdd a b) := .same fun _ => rfl

@[simp] theorem Steady.opAdc {n : Nat} (a b : BitVec n) : Steady (opAdc a b) := .same fun _ => rfl

@[simp] theorem Steady.opSub {n : Nat} (a b : BitVec n) : Steady (opSub a b) := .same fun _ => rfl

@[simp] theorem Steady.opSbb {n : Nat} (a b : BitVec n) : Steady (opSbb a b) := .same fun _ => rfl

@[simp] theorem Steady.opAnd {n : Nat} (a b : BitVec n) : Steady (opAnd a b) := .same fun _ => rfl

@[simp] theorem Steady.opOr {n : Nat} (a b : BitVec n) : Steady (opOr a b) := .same fun _ => rfl

@[simp] theorem Steady.opXor {n : Nat} (a b : BitVec n) : Steady (opXor a b) := .same fun _ => rfl

@[simp] theorem Steady.opInc {n : Nat} (a : BitVec n) : Steady (opInc a) := .same fun _ => rfl

@[simp] theorem Steady.opDec {n : Nat} (a : BitVec n) : Steady (opDec a) := .same fun _ => rfl

@[simp] theorem Steady.opNeg {n : Nat} (a : BitVec n) : Steady (opNeg a) := .same fun _ => rfl

@[simp] theorem Steady.opNot {n : Nat} (a : BitVec n) : Steady (opNot a) := .same fun _ => rfl

theorem Steady.shiftOf (c : Nat) (of1 : Bool) : Steady (shiftOf c of1) := .ite (.pure _) (.same fun _ => rfl)

@[simp] theorem Steady.finishShift {n : Nat} (c : Nat) (r : Shifted n) : Steady (finishShift c r) :=
  .bind (.shiftOf _ _) fun _ => .same fun _ => rfl

@[simp] theorem Steady.finishRotate {n : Nat} (c : Nat) (r : Shifted n) : Steady (finishRotate c r) :=
  .bind (.shiftOf _ _) fun _ => .same fun _ => rfl

theorem Steady.freeStatus : Steady freeStatus := .same fun _ => rfl

theorem Steady.mulFlags (high : Bool) : Steady (mulFlags high) := .same fun _ => rfl

theorem Steady.bitFlags (cf : Bool) : Steady (bitFlags cf) := .same fun _ => rfl

theorem Steady.scanFlags (zf : Bool) : Steady (scanFlags zf) := .same fun _ => rfl

/-! Arithmetic, logic and bits. -/

section
variable (w : Width) (rm : Rm) (r : Reg)

@[simp] theorem Steady.aluTo {op : Binary} (h : ∀ {n} (a b : BitVec n), Steady (op a b)) (b : BitVec w.bits) :
    Steady (aluTo w op rm b) :=
  .bind (.locate _ _ _) fun _ => .bind .get fun _ => .bind (.getPlaceToWrite _ _ _) fun _ => .bind (h _ _) fun _ =>
    .putPlace _ _ _

@[simp] theorem Steady.aluRmReg {op : Binary} (h : ∀ {n} (a b : BitVec n), Steady (op a b)) :
    Steady (aluRmReg w op rm r) := .bind (.getReg _ _) fun _ => .aluTo _ _ h _

@[simp] theorem Steady.aluRegRm {op : Binary} (h : ∀ {n} (a b : BitVec n), Steady (op a b)) :
    Steady (aluRegRm w op r rm) := .bind (.readRm _ _) fun _ => .aluTo _ _ h _

@[simp] theorem Steady.testTo {op : Binary} (h : ∀ {n} (a b : BitVec n), Steady (op a b)) (b : BitVec w.bits) :
    Steady (testTo w op rm b) := .bind (.readRm _ _) fun _ => .bind (h _ _) fun _ => .pure _

@[simp] theorem Steady.testRmReg {op : Binary} (h : ∀ {n} (a b : BitVec n), Steady (op a b)) :
    Steady (testRmReg w op rm r) := .bind (.getReg _ _) fun _ => .testTo _ _ h _

@[simp] theorem Steady.testRegRm {op : Binary} (h : ∀ {n} (a b : BitVec n), Steady (op a b)) :
    Steady (testRegRm w op r rm) := .bind (.readRm _ _) fun _ => .testTo _ _ h _

@[simp] theorem Steady.unaryRm {op : Unary} (h : ∀ {n} (a : BitVec n), Steady (op a)) : Steady (unaryRm w op rm) :=
  .bind (.locate _ _ _) fun _ => .bind .get fun _ => .bind (.getPlaceToWrite _ _ _) fun _ => .bind (h _) fun _ =>
    .putPlace _ _ _

theorem Steady.putWide (v : Nat) : Steady (putWide w v) := by
  cases w <;> exact .same fun _ => rfl

theorem Steady.putQuotient (q x : BitVec w.bits) : Steady (putQuotient w q x) := .same fun _ => rfl

@[simp] theorem Steady.multiply : Steady (multiply w rm) :=
  .bind (.readRm _ _) fun _ => .bind (.getReg _ _) fun _ => .bind (.putWide _ _) fun _ => .mulFlags _

@[simp] theorem Steady.multiplySigned : Steady (multiplySigned w rm) :=
  .bind (.readRm _ _) fun _ => .bind (.getReg _ _) fun _ => .bind (.putWide _ _) fun _ => .mulFlags _

theorem Steady.multiplyInto (a b : BitVec w.bits) : Steady (multiplyInto w r a b) := .same fun _ => rfl

@[simp] theorem Steady.multiplyReg : Steady (multiplyReg w r rm) :=
  .bind (.readRm _ _) fun _ => .bind (.getReg _ _) fun _ => .multiplyInto _ _ _ _

@[simp] theorem Steady.multiplyImm (b : BitVec w.bits) : Steady (multiplyImm w r rm b) :=
  .bind (.readRm _ _) fun _ => .multiplyInto _ _ _ _

@[simp] theorem Steady.divide : Steady (divide w rm) :=
  .bind (.readRm _ _) fun _ => .bind .get fun _ => .require_bind fun _ => .require_bind fun _ =>
    .bind (.putQuotient _ _ _) fun _ => .freeStatus

@[simp] theorem Steady.divideSigned : Steady (divideSigned w rm) :=
  .bind (.readRm _ _) fun _ => .bind .get fun _ => .require_bind fun _ => .require_bind fun _ =>
    .bind (.putQuotient _ _ _) fun _ => .freeStatus

@[simp] theorem Steady.decimalAdjust (f : Byte → Bool → Bool → Adjusted) : Steady (decimalAdjust f) :=
  .same fun _ => rfl

@[simp] theorem Steady.asciiAdjust (step6 step1 : Byte) (ahOpen : Byte → Bool) :
    Steady (asciiAdjust step6 step1 ahOpen) := .same fun _ => rfl

@[simp] theorem Steady.asciiMultiply (base : Byte) : Steady (asciiMultiply base) :=
  .require_bind fun _ => .same fun _ => rfl

@[simp] theorem Steady.asciiDivide (base : Byte) : Steady (asciiDivide base) := .same fun _ => rfl

@[simp] theorem Steady.shiftRm (op : Shift) {ends : ShiftEnd}
    (h : ∀ {n} (c : Nat) (x : Shifted n), Steady (ends c x)) (count : Byte) : Steady (shiftRm w op ends rm count) :=
  .bind (.locate _ _ _) fun _ => .bind (.getPlace _ _) fun _ => .bind .get fun _ =>
    .ite (.pure _) (.bind (h _ _) fun _ => .putPlace _ _ _)

@[simp] theorem Steady.shiftRmCl (op : Shift) {ends : ShiftEnd}
    (h : ∀ {n} (c : Nat) (x : Shifted n), Steady (ends c x)) : Steady (shiftRmCl w op ends rm) :=
  .bind (.getReg _ _) fun _ => .shiftRm _ _ _ h _

@[simp] theorem Steady.doubleShift (f : {n : Nat} → BitVec n → BitVec n → Nat → Shifted n) (count : Byte) :
    Steady (doubleShift w f rm r count) :=
  .bind (.locate _ _ _) fun _ => .bind (.getPlace _ _) fun _ => .bind (.getReg _ _) fun _ => .ite (.pure _) <|
    .ite (.bind (.draw _) fun _ => .bind .freeStatus fun _ => .putPlace _ _ _)
      (.bind (.finishShift _ _) fun _ => .putPlace _ _ _)

@[simp] theorem Steady.doubleShiftCl (f : {n : Nat} → BitVec n → BitVec n → Nat → Shifted n) :
    Steady (doubleShiftCl w f rm r) := .bind (.getReg _ _) fun _ => .doubleShift _ _ _ _ _

theorem Steady.locateBit (offset : BitVec w.bits) (write : Bool) : Steady (locateBit w rm offset write) := by
  cases rm with
  | reg r => exact .pure _
  | mem ea => exact .bind .get fun _ => .map _ (Touches.segLocate _ _ _ _).steady

theorem Steady.testBit (p : Place) (k : Nat) : Steady (testBit w p k) := .bind (.getPlace _ _) fun _ => .bitFlags _

theorem Steady.changeBit (f : {n : Nat} → BitVec n → BitVec n → BitVec n) (p : Place) (k : Nat) :
    Steady (changeBit w f p k) :=
  .bind .get fun _ => .bind (.getPlaceToWrite _ _ _) fun _ => .bind (.bitFlags _) fun _ => .putPlace _ _ _

@[simp] theorem Steady.testBitReg : Steady (testBitReg w rm r) :=
  .bind (.getReg _ _) fun _ => .bind (.locateBit _ _ _ _) fun _ => .testBit _ _ _

@[simp] theorem Steady.testBitImm (imm : Byte) : Steady (testBitImm w rm imm) :=
  .bind (.locate _ _ _) fun _ => .testBit _ _ _

@[simp] theorem Steady.changeBitReg (f : {n : Nat} → BitVec n → BitVec n → BitVec n) :
    Steady (changeBitReg w f rm r) :=
  .bind (.getReg _ _) fun _ => .bind (.locateBit _ _ _ _) fun _ => .changeBit _ _ _ _

@[simp] theorem Steady.changeBitImm (f : {n : Nat} → BitVec n → BitVec n → BitVec n) (imm : Byte) :
    Steady (changeBitImm w f rm imm) := .bind (.locate _ _ _) fun _ => .changeBit _ _ _ _

@[simp] theorem Steady.scanBits (f : {n : Nat} → BitVec n → Nat) : Steady (scanBits w f r rm) :=
  .bind (.readRm _ _) fun _ => .bind (.scanFlags _) fun _ => .bind (.draw _) fun _ => .setReg _ _ _

/-! Data transfer. -/

@[simp] theorem Steady.moveToRm : Steady (moveToRm w rm r) := .bind (.getReg _ _) fun _ => .writeRm _ _ _

@[simp] theorem Steady.moveToReg : Steady (moveToReg w r rm) := .bind (.readRm _ _) fun _ => .setReg _ _ _

@[simp] theorem Steady.loadMoffs (off : Dword) : Steady (loadMoffs w off) :=
  .bind (.locateMoffs _ _ _) fun _ => .bind (.readValue _ _) fun _ => .setReg _ _ _

@[simp] theorem Steady.storeMoffs (off : Dword) : Steady (storeMoffs w off) :=
  .bind (.getReg _ _) fun _ => .bind (.locateMoffs _ _ _) fun _ => .memWrite _ _

@[simp] theorem Steady.moveFromSreg (sr : Sreg) : Steady (moveFromSreg rm sr) := .bind .get fun _ => .writeRm16 _ _

@[simp] theorem Steady.moveToSreg (sr : Sreg) : Steady (moveToSreg sr rm) :=
  .bind (.readRm _ _) fun _ => .bind (.loadSeg _ _) fun _ => .inhibitAfterSS _

@[simp] theorem Steady.pushReg : Steady (pushReg w r) := .bind (.getReg _ _) fun _ => .push _ _

@[simp] theorem Steady.pushRm : Steady (pushRm w rm) :=
  .bind (.locate _ _ _) fun _ => .bind (.pushLocate _ _) fun _ => .bind (.getPlace _ _) fun _ =>
    .bind (.memWrite _ _) fun _ => .moveStackPtr _

@[simp] theorem Steady.pushSreg (sr : Sreg) : Steady (pushSreg sr) :=
  .bind .get fun _ => .ite (.bind (.draw 16) fun _ => .push _ _) (.push _ _)

@[simp] theorem Steady.popReg : Steady (popReg w r) := .bind (.pop _) fun _ => .setReg _ _ _

@[simp] theorem Steady.popRm : Steady (popRm w rm) :=
  .bind (.popLocate _ _) fun _ => .bind (.moveStackPtr _) fun _ => .bind (.locate _ _ _) fun _ =>
    .bind (.memRead _) fun _ => .putPlace _ _ _

@[simp] theorem Steady.popSreg (sr : Sreg) : Steady (popSreg sr) :=
  .bind .get fun _ => .bind (.stackItem _ _) fun _ => .bind (.loadSeg _ _) fun _ => .bind (.moveStackPtr _) fun _ =>
    .inhibitAfterSS _

@[simp] theorem Steady.pushAllRegs : Steady (pushAllRegs w) := .bind .get fun _ => .pushAll _ _

@[simp] theorem Steady.popAllRegs : Steady (popAllRegs w) := .bind (.stackItems _ _ _) fun _ => .same fun _ => rfl

@[simp] theorem Steady.exchange : Steady (exchange w rm r) :=
  .bind (.locate _ _ _) fun _ => .bind (.getPlaceToWrite _ _ _) fun _ => .bind (.getReg _ _) fun _ =>
    .bind (.putPlace _ _ _) fun _ => .setReg _ _ _

@[simp] theorem Steady.translateByte : Steady translateByte :=
  .bind .get fun _ => .bind (.segRead _ _ _) fun _ => .setReg _ _ _

@[simp] theorem Steady.moveZero : Steady (moveZero r w rm) :=
  .bind .get fun _ => .bind (.readRm _ _) fun _ => .setReg _ _ _

@[simp] theorem Steady.moveSign : Steady (moveSign r w rm) :=
  .bind .get fun _ => .bind (.readRm _ _) fun _ => .setReg _ _ _

@[simp] theorem Steady.convertAcc (os32 : Bool) : Steady (convertAcc os32) :=
  .bind .get fun _ => .ite (.setReg _ _ _) (.setReg _ _ _)

@[simp] theorem Steady.spreadSign : Steady (spreadSign w) := .bind (.getReg _ _) fun _ => .setReg _ _ _

@[simp] theorem Steady.inPort (port : Nat) : Steady (inPort w port) :=
  .bind (.ioPermitted _ _) fun _ => .bind (.ioRead _ _) fun _ => .setReg _ _ _

@[simp] theorem Steady.outPort (port : Nat) : Steady (outPort w port) :=
  .bind (.ioPermitted _ _) fun _ => .bind (.getReg _ _) fun _ => .ioWrite _ _ _

@[simp] theorem Steady.loadAddress (ea : EA) : Steady (loadAddress w r ea) := .bind .get fun _ => .setReg _ _ _

@[simp] theorem Steady.loadPointer (sr : Sreg) (ea : EA) : Steady (loadPointer sr r ea) :=
  .bind .get fun _ => .bind (.readFar _) fun _ => .bind (.loadSeg _ _) fun _ => .setReg _ _ _

@[simp] theorem Steady.loadAh : Steady loadAh := .same fun _ => rfl

@[simp] theorem Steady.storeAh : Steady storeAh := .same fun _ => rfl

theorem Steady.requireIopl86 : Steady requireIopl86 := .bind .get fun _ => .require _ _

@[simp] theorem Steady.pushFlags : Steady (pushFlags w) :=
  .bind .requireIopl86 fun _ => .bind .get fun _ => .push _ _

/-- POPF leaves VM as it finds it. -/
@[simp] theorem Steady.popFlags (w : Width) : Steady (popFlags w) :=
  .bind .requireIopl86 fun _ => .get_from fun _ => .after (.pop w) fun _ => .modify_bind (fun _ h => h.with_flags rfl)
    fun _ => .after .advance fun _ => .pure _

/-! Program control. -/

theorem Steady.requireInCS (t : Dword) : Steady (requireInCS t) := .bind .get fun _ => .require _ _

theorem Steady.setEip (t : Dword) : Steady (setEip t) := .bind (.requireInCS _) fun _ => .jumpTo _

@[simp] theorem Steady.jumpIf (taken : Bool) (rel : Dword) : Steady (jumpIf taken rel) :=
  .bind .get fun _ => .branch (.setEip _) .advance fun _ => .pure _

@[simp] theorem Steady.jumpCond (c : Cond) (rel : Dword) : Steady (jumpCond c rel) := .bind .get fun _ => .jumpIf _ _

@[simp] theorem Steady.setCond (c : Cond) : Steady (setCond c rm) := .bind .get fun _ => .writeRm _ _ _

@[simp] theorem Steady.jumpRm : Steady (jumpRm w rm) :=
  .bind (.readRm _ _) fun _ => .bind (.setEip _) fun _ => .pure _

theorem Steady.callNear (t : Dword) : Steady (callNear w t) :=
  .bind .get fun _ => .bind (.requireInCS _) fun _ => .bind (.push _ _) fun _ => .bind (.jumpTo _) fun _ => .pure _

@[simp] theorem Steady.callRelative (rel : Dword) : Steady (callRelative rel) := .bind .get fun _ => .callNear _ _

@[simp] theorem Steady.callRm : Steady (callRm w rm) := .bind (.readRm _ _) fun _ => .callNear _ _

@[simp] theorem Steady.returnNear (n : Word) : Steady (returnNear w n) :=
  .bind (.peek _ _) fun _ => .bind (.requireInCS _) fun _ => .bind (.moveStackPtr _) fun _ =>
    .bind (.jumpTo _) fun _ => .pure _

@[simp] theorem Steady.loopIf (cond : Flags → Bool) (rel : Byte) : Steady (loopIf cond rel) :=
  .bind (.addAsReg _ _) fun _ => .bind .get fun _ => .jumpIf _ _

@[simp] theorem Steady.jumpCountZero (rel : Byte) : Steady (jumpCountZero rel) := .bind .get fun _ => .jumpIf _ _

end

theorem Steady.requireIopl : Steady requireIopl := .bind .get fun _ => .require _ _

@[simp] theorem Steady.clearIf : Steady clearIf := .bind .requireIopl fun _ => .updateFlags fun _ => rfl

@[simp] theorem Steady.setIf : Steady setIf := .bind .requireIopl fun _ => .modify fun _ => .of_eq rfl

/-! Frames, processor control and strings. -/

@[simp] theorem Steady.checkBounds (w : Width) (r : Reg) (ea : EA) : Steady (checkBounds w r ea) :=
  .bind (.getReg _ _) fun _ => .bind (.readParts _ _ _) fun _ => .require _ _

theorem Steady.locateDisplay (n count i : Nat) : Steady (locateDisplay n count i) := by
  induction count generalizing i with
  | zero => exact .pure _
  | succ c ih =>
    exact .bind .get fun _ => .bind (Touches.segLocate _ _ _ _).steady fun _ => .bind (.pushLocate _ _) fun _ =>
      .bind (ih _) fun _ => .pure _

theorem Steady.copyDisplay (ls : List (List Dword × List Dword)) : Steady (copyDisplay ls) := by
  induction ls with
  | nil => exact .pure _
  | cons l ls ih => exact .bind (.memRead _) fun _ => .bind (.memWrite _ _) fun _ => ih

@[simp] theorem Steady.enterFrame (w : Width) (size : Word) (level8 : Byte) : Steady (enterFrame w size level8) :=
  .bind .get fun _ => .bind (.pushLocate _ _) fun _ => .bind (.locateDisplay _ _ _) fun _ =>
    .branch (.pure _) (.pushLocate _ _) fun _ => .bind (.memWrite _ _) fun _ => .bind (.copyDisplay _) fun _ =>
    .bind (.memWrite _ _) fun _ => .modify_bind (fun _ => .of_eq rfl) fun _ => .bind (.setReg _ _ _) fun _ =>
    .moveStackPtr _

@[simp] theorem Steady.leaveFrame (w : Width) : Steady (leaveFrame w) :=
  .bind .get fun _ => .bind (.segRead _ _ _) fun _ => .bind (.setStackPtr _) fun _ => .setReg _ _ _

theorem Steady.requirePrivileged : Steady requirePrivileged := .bind .get fun _ => .require _ _

theorem Steady.requireProtected : Steady requireProtected := .bind .get fun _ => .require _ _

theorem Held.decideHeld (s : State) : Held s s.decideHeld :=
  ⟨fun h => s.decideHeld_mem ▸ h, fun h => s.decideHeld_tlb ▸ h, by rw [s.decideHeld_cr0], by rw [s.decideHeld_cr0],
    by rw [s.decideHeld_flags], s.decideHeld_cpl⟩

@[simp] theorem Steady.halt : Steady halt :=
  .bind .requirePrivileged fun _ => .modify_bind .decideHeld fun _ => .modify fun _ => .of_eq rfl

@[simp] theorem Steady.waitBusy : Steady waitBusy :=
  .bind .get fun _ => .require_bind fun _ => .ite (.pure _) <| .require_bind fun _ => .bind .advance fun _ => .pure _

@[simp] theorem Steady.escape : Steady escape := .bind .get fun _ => .require_bind fun _ => .refuse _

theorem Steady.endIteration (compares : Bool) (k : RepKind) : Steady (endIteration compares k) :=
  .bind (.addAsReg _ _) fun _ => .bind .get fun _ => .ite (.bind .advance fun _ => .pure _) (.pure _)

@[simp] theorem Steady.repeatStep (compares : Bool) {body : M Unit} (h : Steady body) :
    Steady (repeatStep compares body) := by
  refine .bind .get fun _ => ?_
  split
  · exact .bind h fun _ => .bind .advance fun _ => .pure _
  · exact .ite (.bind .advance fun _ => .pure _) (.bind h fun _ => .endIteration _ _)

@[simp] theorem Steady.moveElement (w : Width) : Steady (moveElement w) :=
  .bind (.locateSource _) fun _ => .bind (.locateDest _ _) fun _ => .bind (.readValue _ _) fun _ =>
    .bind (.memWrite _ _) fun _ => .bind (.stepPointer _ _) fun _ => .stepPointer _ _

@[simp] theorem Steady.compareElements (w : Width) : Steady (compareElements w) :=
  .bind (.locateSource _) fun _ => .bind (.locateDest _ _) fun _ => .bind (.readValue _ _) fun _ =>
    .bind (.readValue _ _) fun _ => .bind (.opSub _ _) fun _ => .bind (.stepPointer _ _) fun _ => .stepPointer _ _

@[simp] theorem Steady.scanElement (w : Width) : Steady (scanElement w) :=
  .bind (.locateDest _ _) fun _ => .bind (.readValue _ _) fun _ => .bind (.getReg _ _) fun _ =>
    .bind (.opSub _ _) fun _ => .stepPointer _ _

@[simp] theorem Steady.loadElement (w : Width) : Steady (loadElement w) :=
  .bind (.locateSource _) fun _ => .bind (.readValue _ _) fun _ => .bind (.setReg _ _ _) fun _ => .stepPointer _ _

@[simp] theorem Steady.storeElement (w : Width) : Steady (storeElement w) :=
  .bind (.getReg _ _) fun _ => .bind (.locateDest _ _) fun _ => .bind (.memWrite _ _) fun _ => .stepPointer _ _

@[simp] theorem Steady.inElement (w : Width) : Steady (inElement w) :=
  .bind .get fun _ => .bind (.ioPermitted _ _) fun _ => .bind (.locateDest _ _) fun _ => .bind (.ioRead _ _) fun _ =>
    .bind (.memWrite _ _) fun _ => .stepPointer _ _

@[simp] theorem Steady.outElement (w : Width) : Steady (outElement w) :=
  .bind .get fun _ => .bind (.ioPermitted _ _) fun _ => .bind (.locateSource _) fun _ => .bind (.readValue _ _) fun _ =>
    .bind (.ioWrite _ _ _) fun _ => .stepPointer _ _

/-! System registers: all but MOV CR0 and LMSW. -/

theorem Steady.tlbFlush : Steady tlbFlush := fun _ => ⟨id, fun _ => List.length_replicate, rfl, rfl, rfl, rfl⟩

@[simp] theorem Steady.storeTable (t : TableReg) (ea : EA) : Steady (storeTable t ea) :=
  .bind .get fun _ => .bind (.locateEa _ _ _ _) fun _ => .bind (.locateEa _ _ _ _) fun _ => .bind (.draw 8) fun _ =>
    .bind (.memWrite _ _) fun _ => .memWrite _ _

theorem Steady.readTable (ea : EA) : Steady (readTable ea) :=
  .bind .get fun _ => .bind (.readParts _ _ _) fun _ => .pure _

@[simp] theorem Steady.loadGdt (ea : EA) : Steady (loadGdt ea) :=
  .bind .requirePrivileged fun _ => .bind (.readTable _) fun _ => .modify fun _ => .of_eq rfl

@[simp] theorem Steady.loadIdt (ea : EA) : Steady (loadIdt ea) :=
  .bind .requirePrivileged fun _ => .bind (.readTable _) fun _ => .modify fun _ => .of_eq rfl

@[simp] theorem Steady.storeSelector (sel : State → Word) (rm : Rm) : Steady (storeSelector sel rm) :=
  .bind .requireProtected fun _ => .bind .get fun _ => .writeRm16 _ _

@[simp] theorem Steady.loadLdt (rm : Rm) : Steady (loadLdt rm) :=
  .bind .requireProtected fun _ => .bind .requirePrivileged fun _ => .bind (.readRm _ _) fun _ =>
    .ite (.modify fun _ => .of_eq rfl) <| .require_bind fun _ => .bind (.findDesc _ _) fun _ => .require_bind fun _ =>
    .require_bind fun _ => .modify fun _ => .of_eq rfl

@[simp] theorem Steady.loadTask (rm : Rm) : Steady (loadTask rm) :=
  .bind .requireProtected fun _ => .bind .requirePrivileged fun _ => .bind (.readRm _ _) fun _ => .require_bind fun _ =>
    .require_bind fun _ => .bind (.findDesc _ _) fun _ => .require_bind fun _ => .require_bind fun _ =>
    .bind (.linLocate _ _ _ _) fun _ => .bind (.changeTypeByte _ _ _) fun _ => .modify fun _ => .of_eq rfl

theorem Steady.visible (sel : Word) : Steady (visible sel) :=
  .bind .get fun _ => .ite (.pure _) (.bind (.readDesc _) fun _ => .pure _)

theorem Steady.setZf (z : Bool) : Steady (setZf z) := .same fun _ => rfl

@[simp] theorem Steady.adjustRpl (rm : Rm) (r : Reg) : Steady (adjustRpl rm r) :=
  .bind .requireProtected fun _ => .bind (.locate _ _ _) fun _ => .bind (.getPlace _ _) fun _ =>
    .bind (.getReg _ _) fun _ => .ite (.bind (.putPlace _ _ _) fun _ => .setZf _) (.setZf _)

@[simp] theorem Steady.loadFromDesc (ok : Descriptor → Bool) (value : Descriptor → Dword) (r : Reg) (rm : Rm) :
    Steady (loadFromDesc ok value r rm) := by
  refine .bind .requireProtected fun _ => .bind .get fun _ => .bind (.readRm _ _) fun _ =>
    .bind (.visible _) fun d => ?_
  cases d with
  | none => exact .setZf _
  | some d => exact .ite (.bind (.setReg _ _ _) fun _ => .setZf _) (.setZf _)

@[simp] theorem Steady.verify (ok : Descriptor → Bool) (rm : Rm) : Steady (verify ok rm) :=
  .bind .requireProtected fun _ => .bind (.readRm _ _) fun _ => .bind (.visible _) fun _ => .setZf _

@[simp] theorem Steady.storeMsw (rm : Rm) : Steady (storeMsw rm) :=
  .bind .get fun _ => .bind (.draw _) fun _ => .writeRm16 _ _

@[simp] theorem Steady.clearTs : Steady clearTs := .bind .requirePrivileged fun _ => .modify fun _ => .of_eq rfl

theorem Steady.withFree (mask v : Dword) : Steady (withFree mask v) := .same fun _ => rfl

theorem Steady.readControl (n : BitVec 3) : Steady (readControl n) := by
  refine .bind .get fun _ => ?_
  split
  · exact .withFree _ _
  · exact .pure _
  · exact .withFree _ _
  · exact .raise _

/-- A write of another control register than CR0. -/
theorem Steady.writeControl {n : BitVec 3} (hn : n ≠ 0) (v : Dword) : Steady (writeControl n v) := by
  unfold Machine.writeControl
  split
  case h_1 h => exact absurd (BitVec.eq_of_toNat_eq h) hn
  case h_2 => exact .modify fun _ => .of_eq rfl
  case h_3 => exact .modify_bind (fun _ => .of_eq rfl) fun _ => .tlbFlush
  case h_4 => exact .raise _

@[simp] theorem Steady.moveFromControl (r : Reg) (n : BitVec 3) : Steady (moveFromControl r n) :=
  .bind .requirePrivileged fun _ => .bind (.readControl _) fun _ => .bind (.setReg _ _ _) fun _ => .freeStatus

theorem Steady.moveToControl {n : BitVec 3} (hn : n ≠ 0) (r : Reg) : Steady (moveToControl n r) :=
  .bind .requirePrivileged fun _ => .bind (.getReg _ _) fun _ => .bind (.writeControl hn _) fun _ => .freeStatus

theorem Steady.requireDebug : Steady requireDebug :=
  .bind .requirePrivileged fun _ => .bind .get fun _ => .require _ _

theorem Steady.readDebug (n : BitVec 3) : Steady (readDebug n) := by
  refine .bind .get fun _ => ?_
  split
  case h_5 | h_6 => exact .withFree _ _
  case h_7 => exact .refuse _
  all_goals exact .pure _

theorem Steady.writeDebug (n : BitVec 3) (v : Dword) : Steady (writeDebug n v) := by
  unfold Machine.writeDebug
  split
  case h_7 => exact .refuse _
  all_goals exact .modify fun _ => .of_eq rfl

@[simp] theorem Steady.moveFromDebug (r : Reg) (n : BitVec 3) : Steady (moveFromDebug r n) :=
  .bind .requireDebug fun _ => .bind (.readDebug _) fun _ => .bind (.setReg _ _ _) fun _ => .freeStatus

@[simp] theorem Steady.moveToDebug (n : BitVec 3) (r : Reg) : Steady (moveToDebug n r) :=
  .bind .requireDebug fun _ => .bind (.getReg _ _) fun _ => .bind (.writeDebug _ _) fun _ => .freeStatus

theorem Steady.pairBit (x notX : Bool) : Steady (pairBit x notX) := .ite (.pure _) (.same fun _ => rfl)

theorem Steady.tlbPut (way : Nat) (e : Option TlbEntry) (page : BitVec 20) : Steady (tlbPut way e page) :=
  fun _ => ⟨id, fun h => List.length_set.trans h, rfl, rfl, rfl, rfl⟩

theorem Steady.tlbWrite (c : Dword) : Steady (tlbWrite c) :=
  .bind .get fun _ => .bind (.pairBit _ _) fun _ => .bind (.pairBit _ _) fun _ => .bind (.pairBit _ _) fun _ =>
    .bind (.draw 2) fun _ => .tlbPut _ _ _

theorem Steady.tlbLookup (c : Dword) : Steady (tlbLookup c) := by
  refine .bind .get fun _ => ?_
  split
  · exact .same fun _ => rfl
  · exact .modify fun _ => .of_eq rfl
  · exact .refuse _

theorem Steady.readTest (n : BitVec 3) : Steady (readTest n) := by
  refine .bind .get fun _ => ?_
  split
  · exact .withFree _ _
  · exact .withFree _ _
  · exact .raise _

theorem Steady.writeTest (n : BitVec 3) (v : Dword) : Steady (writeTest n v) := by
  unfold Machine.writeTest
  split
  · exact .bind .get fun _ => .ite (.refuse _) <| .modify_bind (fun _ => .of_eq rfl) fun _ =>
      .ite (.tlbLookup _) (.tlbWrite _)
  · exact .modify fun _ => .of_eq rfl
  · exact .raise _

@[simp] theorem Steady.moveFromTest (r : Reg) (n : BitVec 3) : Steady (moveFromTest r n) :=
  .bind .requirePrivileged fun _ => .bind (.readTest _) fun _ => .bind (.setReg _ _ _) fun _ => .freeStatus

@[simp] theorem Steady.moveToTest (n : BitVec 3) (r : Reg) : Steady (moveToTest n r) :=
  .bind .requirePrivileged fun _ => .bind (.getReg _ _) fun _ => .bind (.writeTest _ _) fun _ => .freeStatus


/-! What is known of the mode. -/

/-- What is known of the mode while a meaning runs: nothing, CPL 0 outside Virtual 8086 Mode, PE = 1, or PE = 1 and
VM = 0. -/
inductive ModeFact where
  | any
  | level0
  | pe
  | protMode

/-- A state is as a mode fact says. -/
def ModeFact.Holds : ModeFact → State → Prop
  | .any, _ => True
  | .level0, s => s.cpl = 0 ∧ s.flags.vm = false
  | .pe, s => s.cr0.pe = true
  | .protMode, s => s.cr0.pe = true ∧ s.flags.vm = false

/-- What is known with PE = 1 where VM is `vm`. -/
def ModeFact.ofVm (vm : Bool) : ModeFact := if vm then .pe else .protMode

/-- What is known where it is Protected Mode or not. -/
def ModeFact.ofMode (p : Bool) : ModeFact := if p then .protMode else .any

/-- One mode fact gives another. -/
def ModeFact.Gives (k k' : ModeFact) : Prop := ∀ s, k.Holds s → k'.Holds s

@[simp] theorem ModeFact.gives_self (k : ModeFact) : k.Gives k := fun _ => id

@[simp] theorem ModeFact.gives_any (k : ModeFact) : k.Gives .any := fun _ _ => trivial

@[simp] theorem ModeFact.protMode_gives_pe : ModeFact.protMode.Gives .pe := fun _ h => h.1

@[simp] theorem ModeFact.ofVm_gives_pe (vm : Bool) : (ModeFact.ofVm vm).Gives .pe := by
  cases vm
  · exact protMode_gives_pe
  · exact gives_self _

/-- The invariant of a state in the middle of a step, and what is known of its mode. -/
structure Sound (k : ModeFact) (s : State) : Prop where
  inv : Inv s.idle
  mode : k.Holds s

theorem Sound.weaken {k k' : ModeFact} {s : State} (h : Sound k s) (hk : k.Gives k') : Sound k' s :=
  ⟨h.inv, hk s h.mode⟩

theorem Inv.sound {s : State} (h : Inv s) : Sound .any s := ⟨⟨h.mem, h.tlb, h.real, h.virtual, h.paging, rfl⟩, trivial⟩

/-- Between steps. -/
theorem Sound.to_inv {k : ModeFact} {s : State} (h : Sound k s) (hd : s.dec = InProgress.empty) : Inv s :=
  ⟨h.inv.mem, h.inv.tlb, h.inv.real, h.inv.virtual, h.inv.paging, hd⟩

theorem Sound.idle {k : ModeFact} {s : State} (h : Sound k s) : Inv s.idle := h.inv

theorem Sound.held {k : ModeFact} {s t : State} (h : Sound k s) (ht : Held s t) : Sound k t := by
  obtain ⟨⟨hm, htlb, hreal, hvirt, hpg, -⟩, hk⟩ := h
  obtain ⟨htm, htt, htpe, htpg, htvm, htcpl⟩ := ht
  refine ⟨⟨htm hm, htt htlb, ?_, ?_, ?_, rfl⟩, ?_⟩
  · exact fun e => ⟨htcpl.trans (hreal (htpe.symm.trans e)).1, htvm.trans (hreal (htpe.symm.trans e)).2⟩
  · exact fun e => htcpl.trans (hvirt (htvm.symm.trans e))
  · exact fun e => htpe.trans (hpg (htpg.symm.trans e))
  · cases k with
    | any => trivial
    | level0 => exact ⟨htcpl.trans hk.1, htvm.trans hk.2⟩
    | pe => exact htpe.trans hk
    | protMode => exact ⟨htpe.trans hk.1, htvm.trans hk.2⟩

/-- With PE = 1 the invariant asks of mode and level only that Virtual 8086 Mode runs at CPL 3. -/
theorem Sound.of_pe {k : ModeFact} {s : State} (hm : s.mem.wf = true) (ht : s.tlb.length = 32) (hpe : s.cr0.pe = true)
    (hv : s.flags.vm = true → s.cpl = 3) (hk : k.Holds s) : Sound k s :=
  ⟨⟨hm, ht, fun e => absurd (hpe.symm.trans e) (by decide), hv, fun _ => hpe, rfl⟩, hk⟩

theorem Sound.of_protMode {s : State} (hm : s.mem.wf = true) (ht : s.tlb.length = 32) (hpe : s.cr0.pe = true)
    (hv : s.flags.vm = false) : Sound .protMode s :=
  .of_pe hm ht hpe (fun e => absurd (hv.symm.trans e) (by decide)) ⟨hpe, hv⟩

/-- With PE = 1 VM says which of the two modes it is. -/
theorem Sound.ofVm {s : State} (h : Sound .pe s) : Sound (.ofVm s.flags.vm) s := by
  refine ⟨h.inv, ?_⟩
  cases hv : s.flags.vm
  · exact ⟨h.mode, hv⟩
  · exact h.mode

/-- The mode at the start. -/
theorem Sound.ofMode {s : State} (h : Sound .any s) : Sound (.ofMode s.protMode) s := by
  refine ⟨h.inv, ?_⟩
  cases hm : s.protMode
  · trivial
  · obtain ⟨hpe, hvm⟩ := Bool.and_eq_true_iff.1 hm
    exact ⟨hpe, by simpa using hvm⟩

/-! Meanings that lead from one mode fact to another. -/

/-- A meaning that keeps the invariant, whether it completes or stops short, and leads from what is known of the mode
to what is known once it completes. -/
def Leads (k k' : ModeFact) (x : M α) : Prop :=
  ∀ s, Sound k s → (∀ a t, x s = .ok a t → Sound k' t) ∧ ∀ e t, x s = .error e t → Sound .any t

section
variable {k k' : ModeFact}

theorem Leads.weaken {k₁ : ModeFact} {x : M α} (hx : Leads k k' x) (h : k'.Gives k₁) : Leads k k₁ x :=
  fun s hs => ⟨fun a t e => ((hx s hs).1 a t e).weaken h, (hx s hs).2⟩

theorem Leads.strengthen {k₀ : ModeFact} {x : M α} (hx : Leads k k' x) (h : k₀.Gives k) : Leads k₀ k' x :=
  fun s hs => hx s (hs.weaken h)

theorem Steady.leads {x : M α} (hx : Steady x) : Leads k k x :=
  fun _ hs => ⟨fun _ _ e => hs.held (hx.of_ok e), fun _ _ e => (hs.held (hx.of_error e)).weaken k.gives_any⟩

theorem Leads.bind {k₁ : ModeFact} {x : M α} {f : α → M β} (hx : Leads k k₁ x) (hf : ∀ a, Leads k₁ k' (f a)) :
    Leads k k' (x >>= f) := by
  intro s hs
  refine ⟨fun b t h => ?_, fun e t h => ?_⟩
  · obtain ⟨a, u, hu, ht⟩ := M.bind_eq_ok h
    exact (hf a u ((hx s hs).1 a u hu)).1 b t ht
  · obtain hu | ⟨a, u, hu, ht⟩ := M.bind_eq_error h
    · exact (hx s hs).2 e t hu
    · exact (hf a u ((hx s hs).1 a u hu)).2 e t ht

/-- After what leaves the mode alone. -/
theorem Leads.after {x : M α} {f : α → M β} (hx : Steady x) (hf : ∀ a, Leads k k' (f a)) : Leads k k' (x >>= f) :=
  .bind hx.leads hf

theorem Leads.require_bind {b : Bool} {e : Exn} {f : Unit → M β} (hf : ∀ a, Leads k k' (f a)) :
    Leads k k' (require b e >>= f) := .after (.require b e) hf

theorem Leads.pure (a : α) : Leads k k (pure a : M α) := (Steady.pure a).leads

/-- What stops short leads anywhere. -/
theorem Leads.raise (e : Exn) : Leads k k' (raise e : M α) :=
  fun _ hs => ⟨fun _ _ h => (nomatch h), fun _ _ h => by cases h; exact hs.weaken k.gives_any⟩

theorem Leads.refuse (r : Refusal) : Leads k k' (refuse r : M α) :=
  fun _ hs => ⟨fun _ _ h => (nomatch h), fun _ _ h => by cases h; exact hs.weaken k.gives_any⟩

/-- An update of the state. -/
theorem Leads.modify {f : State → State} (hf : ∀ s, Sound k s → Sound k' (f s)) : Leads k k' (modify f : M Unit) :=
  fun s hs => ⟨fun _ _ h => by cases h; exact hf s hs, fun _ _ h => nomatch h⟩

theorem Leads.ite {c : Prop} [Decidable c] {x y : M α} (hx : c → Leads k k' x) (hy : ¬ c → Leads k k' y) :
    Leads k k' (if c then x else y) := by
  split
  case isTrue h => exact hx h
  case isFalse h => exact hy h

/-- Two ways that leave the mode alone to one continuation. -/
theorem Leads.branch {c : Prop} [Decidable c] {x y : M α} {f : α → M β} (hx : Steady x) (hy : Steady y)
    (hf : ∀ a, Leads k k' (f a)) : Leads k k' (if c then x >>= f else y >>= f) :=
  .ite (fun _ => .after hx hf) fun _ => .after hy hf

theorem Leads.when {c : Prop} [Decidable c] {x : M Unit} {f : Unit → M β} (hx : Steady x)
    (hf : ∀ a, Leads k k' (f a)) : Leads k k' (if c then x >>= f else f ()) :=
  .ite (fun _ => .after hx hf) fun _ => hf ()

theorem Leads.unless {c : Prop} [Decidable c] {x : M Unit} {f : Unit → M β} (hx : Steady x)
    (hf : ∀ a, Leads k k' (f a)) : Leads k k' (if c then f () else x >>= f) :=
  .ite (fun _ => hf ()) fun _ => .after hx hf

/-- A meaning that first looks at the state. -/
theorem Leads.get_bind {f : State → M β} {k₀ : State → ModeFact} (hk : ∀ s, Sound k s → Sound (k₀ s) s)
    (hf : ∀ s, Sound k s → Leads (k₀ s) k' (f s)) : Leads k k' ((get : M State) >>= f) :=
  fun s hs => hf s hs s (hk s hs)

end

/-- PE = 1 and what VM says at the start. -/
theorem Leads.by_vm {f : State → M β} (hf : ∀ s, Leads (.ofVm s.flags.vm) .pe (f s)) :
    Leads .pe .pe ((get : M State) >>= f) := .get_bind (fun _ hs => hs.ofVm) fun s _ => hf s

/-- Whether it is Protected Mode at the start. -/
theorem Leads.by_mode {f : State → M β} (hf : ∀ s, Leads (.ofMode s.protMode) .any (f s)) :
    Leads .any .any ((get : M State) >>= f) := .get_bind (fun _ hs => hs.ofMode) fun s _ => hf s

/-- One way in Protected Mode, another in Real Mode and in Virtual 8086 Mode. -/
theorem Leads.by_protMode {p : Bool} {x y : M α} (hx : Leads .protMode .any x) (hy : Leads .any .any y) :
    Leads (.ofMode p) .any (if p then x else y) := by
  cases p
  · exact hy
  · exact hx

/-! Transfers of control in Protected Mode write CPL. -/

theorem Leads.commitCS (sel : Word) (d : Descriptor) (cpl : BitVec 2) :
    Leads .protMode .protMode (commitCS sel d cpl) :=
  .modify fun _ hs => .of_protMode hs.inv.mem hs.inv.tlb hs.mode.1 hs.mode.2

theorem Leads.farSameLevel (kind : FarKind) (n : Nat) (sel : Word) (a : Dword) (d : Descriptor) (off : Dword) :
    Leads .protMode .protMode (farSameLevel kind n sel a d off) := by
  refine .after .get fun _ => .when (.requireRoom _ _) fun _ => .require_bind fun _ =>
    .branch (.locatePushes _ _ _) (.pure _) fun _ => .after (.locateAccessed _ _) fun _ => .ite
      (fun _ => .after (.selectorSlot _ _) fun _ => .after (.memWriteAll _ _) fun _ =>
        .after (.moveStackPtr _) fun _ => ?_) fun _ => ?_
  all_goals exact .after (.markAccessed _) fun _ => .bind (.commitCS _ _ _) fun _ => .after (.jumpTo _) fun _ => .pure _

theorem Leads.directCode (kind : FarKind) (sel : Word) (a : Dword) (d : Descriptor) (off : Dword) :
    Leads .protMode .protMode (directCode kind sel a d off) :=
  .after .get fun _ => .require_bind fun _ => .require_bind fun _ => .farSameLevel _ _ _ _ _ _

theorem Leads.innerCall (g : Descriptor) (sel : Word) (a : Dword) (d : Descriptor) (off : Dword) :
    Leads .protMode .protMode (innerCall g sel a d off) := by
  refine .after (.innerStack _) fun _ => .after .get fun _ => ?_
  dsimp only
  split
  · exact .raise _
  · exact .require_bind fun _ => .after (.locateItems _ _ _) fun _ => .after (.switchStack _) fun _ =>
      .bind (.commitCS _ _ _) fun _ => .after (.locatePushes _ _ _) fun _ => .after (.locateAccessed _ _) fun _ =>
      .after (.locateAccessed _ _) fun _ => .after (.memReadAll _) fun _ => .after (.selectorSlot _ _) fun _ =>
      .after (.markAccessed _) fun _ => .after (.markAccessed _) fun _ => .after (.memWriteAll _ _) fun _ =>
      .after (.moveStackPtr _) fun _ => .after (.jumpTo _) fun _ => .pure _

theorem Leads.callGate (kind : FarKind) (gsel : Word) (g : Descriptor) :
    Leads .protMode .protMode (callGate kind gsel g) :=
  .after .get fun _ => .require_bind fun _ => .require_bind fun _ => .require_bind fun _ =>
    .after (.findDesc _ _) fun _ => .require_bind fun _ => .require_bind fun _ => .require_bind fun _ =>
    .require_bind fun _ => .ite (fun _ => .innerCall _ _ _ _ _) fun _ => .farSameLevel _ _ _ _ _ _

theorem Leads.returnCS (sel : Word) (off : Dword) (items release : Nat) :
    Leads .protMode .protMode (returnCS sel off items release) :=
  .after .get fun _ => .require_bind fun _ => .after (.findDesc _ _) fun _ => .require_bind fun _ =>
    .require_bind fun _ => .require_bind fun _ => .require_bind fun _ => .ite
      (fun _ => .require_bind fun _ => .after (.setAccessed _ _) fun _ => .after (.moveStackPtr _) fun _ =>
        .bind (.commitCS _ _ _) fun _ => (Steady.jumpTo _).leads)
      fun _ => .after (.requireStack _) fun _ => .after (.stackItems _ _ _) fun _ => .require_bind fun _ =>
        .after (.findDesc _ _) fun _ => .require_bind fun _ => .require_bind fun _ => .require_bind fun _ =>
        .require_bind fun _ => .after (.locateAccessed _ _) fun _ => .after (.locateAccessed _ _) fun _ =>
        .after (.markAccessed _) fun _ => .after (.markAccessed _) fun _ => .bind (.commitCS _ _ _) fun _ =>
        .after (.jumpTo _) fun _ => .after (.setSeg _ _) fun _ => .branch (.draw 16) (.pure _) fun _ =>
        .after (.setStackPtr _) fun _ => .after (.moveStackPtr _) fun _ => Steady.validateDataSegs.leads

/-! The task switch writes VM and CPL (60_exceptions.md R670, R673). -/

theorem Leads.inNewTask {k k' : ModeFact} {x : M α} (hx : Leads k k' x) : Leads k k' (inNewTask x) := by
  intro s hs
  obtain ⟨hok, herr⟩ := hx s hs
  unfold Machine.inNewTask
  refine ⟨fun a t h => hok a t ?_, fun e t h => ?_⟩
  all_goals cases hx : x s with
  | ok b u => simp_all
  | error r u => cases r <;> simp_all

theorem Leads.loadTaskCS (cs : Word) : Leads .protMode .protMode (loadTaskCS cs) :=
  .require_bind fun _ => .after (.findDesc _ _) fun _ => .require_bind fun _ => .require_bind fun _ =>
    .require_bind fun _ => .after (.setAccessed _ _) fun _ => .commitCS _ _ _

/-- The end of a task switch: EIP inside the code segment, and the T bit. -/
theorem steady_taskEnd (t : Bool) : Steady (do
    let u ← get
    require (decide (u.eip ≤ u.segs.cs.limit)) (.gp 0)
    if t then modify fun v => { v with pend := { v.pend with bt := true } } else pure ()) :=
  .bind .get fun _ => .require_bind fun _ => .ite (.modify fun _ => .of_eq rfl) (.pure ())

theorem Leads.taskValidate (t : Bool) : Leads .pe .pe (taskValidate t) := by
  refine .by_vm fun s => .after (.loadTaskLdt _) fun _ => .ite (fun _ => .after .loadTask8086 fun _ => ?_) fun h => ?_
  case refine_2 =>
    have hvm : ModeFact.ofVm s.flags.vm = .protMode := if_neg h
    rw [hvm]
    exact .bind (.loadTaskCS _) fun _ => .after (.loadTaskSS _) fun _ => .after (.loadDataSeg _ _ _) fun _ =>
      .after (.loadDataSeg _ _ _) fun _ => .after (.loadDataSeg _ _ _) fun _ => .after (.loadDataSeg _ _ _) fun _ =>
      (steady_taskEnd t).leads.weaken ModeFact.protMode_gives_pe
  case refine_1 => exact (steady_taskEnd t).leads.weaken (ModeFact.ofVm_gives_pe _)

theorem Held.noteHits (s : State) : Held s s.noteHits := .of_eq (by simp [State.standing])

/-- What is loaded has VM and with it CPL 3, or the CPL of before. -/
theorem Leads.taskLoad (is386 nests : Bool) (pageDir : Nat) (vs : List Nat) :
    Leads .pe .pe (taskLoad is386 nests pageDir vs) := by
  refine .after (.loadedReg _ _) fun _ => .after (.loadedReg _ _) fun _ => .after (.loadedReg _ _) fun _ =>
    .after (.loadedReg _ _) fun _ => .after (.loadedReg _ _) fun _ => .after (.loadedReg _ _) fun _ =>
    .after (.loadedReg _ _) fun _ => .after (.loadedReg _ _) fun _ => .modify fun s hs => ?_
  refine .of_pe hs.inv.mem ?_ hs.mode (fun h => if_pos h) hs.mode
  exact (apply_ite List.length _ _ _).trans (ite_eq_iff'.2 ⟨fun _ => List.length_replicate, fun _ => hs.inv.tlb⟩)

theorem Leads.taskSwitch (sel : Word) (d : Descriptor) (kind : SwitchKind) : Leads .pe .pe (taskSwitch sel d kind) :=
  .after .get fun _ => .require_bind fun _ => .after (.locateFields _ _ _) fun _ => .after (.locateFields _ _ _)
    fun _ => .branch (.linLocate _ _ _ _) (.pure _) fun _ => .branch (.pure _) (.linLocate _ _ _ _) fun _ =>
    .branch (.pure _) (.linLocate _ _ _ _) fun _ => .after (.savedValues _ _ _) fun _ => .after (.memWriteAll _ _)
    fun _ => .unless (.changeTypeByte _ _ _) fun _ => .when (.memWrite _ _) fun _ => .unless (.changeTypeByte _ _ _)
    fun _ => .after (.memReadAll _) fun _ => .after (.modify .noteHits) fun _ => .after (.modify fun _ => .of_eq rfl)
    fun _ => .bind (.taskLoad _ _ _ _) fun _ => (Leads.taskValidate _).inNewTask

theorem Leads.tssDirect (kind : FarKind) (sel : Word) (d : Descriptor) : Leads .pe .pe (tssDirect kind sel d) :=
  .after .get fun _ => .require_bind fun _ => .require_bind fun _ => .require_bind fun _ => .after .advance fun _ =>
    .bind (.taskSwitch _ _ _) fun _ => .pure _

theorem Leads.taskGate (kind : FarKind) (gsel : Word) (g : Descriptor) : Leads .pe .pe (taskGate kind gsel g) :=
  .after .get fun _ => .require_bind fun _ => .require_bind fun _ => .require_bind fun _ =>
    .after (.findDesc _ _) fun _ => .require_bind fun _ => .require_bind fun _ => .after .advance fun _ =>
    .bind (.taskSwitch _ _ _) fun _ => .pure _

theorem Leads.farTransfer (kind : FarKind) (sel : Word) (off : Dword) :
    Leads .protMode .pe (farTransfer kind sel off) := by
  refine .require_bind fun _ => .after (.findDesc _ _) fun _ =>
    .ite (fun _ => .require_bind fun _ => (Leads.directCode _ _ _ _ _).weaken ModeFact.protMode_gives_pe) fun _ => ?_
  split
  · exact (Leads.callGate _ _ _).weaken ModeFact.protMode_gives_pe
  · exact (Leads.callGate _ _ _).weaken ModeFact.protMode_gives_pe
  · exact (Leads.taskGate _ _ _).strengthen ModeFact.protMode_gives_pe
  · exact (Leads.tssDirect _ _ _).strengthen ModeFact.protMode_gives_pe
  · exact (Leads.tssDirect _ _ _).strengthen ModeFact.protMode_gives_pe
  · exact .raise _

@[simp] theorem Leads.jumpFar (sel : Word) (off : Dword) : Leads .any .any (jumpFar sel off) :=
  .by_mode fun _ => .by_protMode ((Leads.farTransfer _ _ _).weaken (ModeFact.gives_any _)) <|
    .after (.farLoad8086 _ _) fun _ => .pure _

@[simp] theorem Leads.callFar (sel : Word) (off : Dword) : Leads .any .any (callFar sel off) :=
  .by_mode fun _ => .by_protMode ((Leads.farTransfer _ _ _).weaken (ModeFact.gives_any _)) <|
    .after (.requireInCS _) fun _ => .after (.requireRoom _ _) fun _ => .after (.selectorSlot _ _) fun _ =>
    .after (.pushAll _ _) fun _ => .after (.farLoad8086 _ _) fun _ => .pure _

@[simp] theorem Leads.jumpFarM (ea : EA) : Leads .any .any (jumpFarM ea) := .after (.readFar _) fun _ => .jumpFar _ _

@[simp] theorem Leads.callFarM (ea : EA) : Leads .any .any (callFarM ea) := .after (.readFar _) fun _ => .callFar _ _

/-! Interrupts, and returns from them. -/

theorem Leads.interruptTaskGate (g : Descriptor) (ret : Dword) (code : Option Word) (rfImage : Bool) :
    Leads .pe .pe (interruptTaskGate g ret code rfImage) := by
  refine .require_bind fun _ => .after (.findDesc _ _) fun _ => .require_bind fun _ => .require_bind fun _ =>
    .after (.modify fun _ => .of_eq rfl) fun _ => .bind (.taskSwitch _ _ _) fun _ => ?_
  cases code with
  | none => exact .pure _
  | some c => exact .inNewTask (.after .get fun _ => .after (.selectorSlot _ _) fun _ => (Steady.pushAll _ _).leads)

/-- The handler's flags have VM = 0. -/
theorem leads_toHandler (interruptGate : Bool) :
    Leads .pe .protMode (modify fun s => { s with flags := s.flags.inHandler interruptGate } : M Unit) :=
  .modify fun _ hs => .of_protMode hs.inv.mem hs.inv.tlb hs.mode rfl

theorem Leads.v86Entry (sel : Word) (a : Dword) (d : Descriptor) (off : Dword) (interruptGate : Bool)
    (image ret : Dword) (code : Option Word) : Leads .pe .pe (v86Entry sel a d off interruptGate image ret code) :=
  .after (.innerStack _) fun _ => .after .get fun _ => .bind (leads_toHandler _) fun _ =>
    .after (.switchStack _) fun _ => .bind (.commitCS _ _ _) fun _ => .after (.selectorSlot _ _) fun _ =>
    .after (.selectorSlot _ _) fun _ => .after (.selectorSlot _ _) fun _ => .after (.selectorSlot _ _) fun _ =>
    .after (.selectorSlot _ _) fun _ => .after (.selectorSlot _ _) fun _ => .after (.codeSlot _ _) fun _ =>
    .after (.requireRoom _ _) fun _ => .require_bind fun _ => .after (.locatePushes _ _ _) fun _ =>
    .after (.locateAccessed _ _) fun _ => .after (.locateAccessed _ _) fun _ => .after (.markAccessed _) fun _ =>
    .after (.markAccessed _) fun _ => .after (.memWriteAll _ _) fun _ => .after (.moveStackPtr _) fun _ =>
    .after (.modify fun _ => .of_eq rfl) fun _ =>
    (Steady.jumpTo _).leads.weaken ModeFact.protMode_gives_pe

theorem Leads.innerInterrupt (sel : Word) (a : Dword) (d : Descriptor) (off : Dword) (wide : Bool) (image ret : Dword)
    (code : Option Word) : Leads .protMode .protMode (innerInterrupt sel a d off wide image ret code) :=
  .after (.innerStack _) fun _ => .after .get fun _ => .after (.switchStack _) fun _ => .bind (.commitCS _ _ _) fun _ =>
    .after (.selectorSlot _ _) fun _ => .after (.selectorSlot _ _) fun _ => .after (.codeSlot _ _) fun _ =>
    .after (.requireRoom _ _) fun _ => .require_bind fun _ => .after (.locatePushes _ _ _) fun _ =>
    .after (.locateAccessed _ _) fun _ => .after (.locateAccessed _ _) fun _ => .after (.markAccessed _) fun _ =>
    .after (.markAccessed _) fun _ => .after (.memWriteAll _ _) fun _ => .after (.moveStackPtr _) fun _ =>
    (Steady.jumpTo _).leads

theorem Leads.sameLevelInterrupt (sel : Word) (a : Dword) (d : Descriptor) (off : Dword) (wide : Bool)
    (image ret : Dword) (code : Option Word) :
    Leads .protMode .protMode (sameLevelInterrupt sel a d off wide image ret code) :=
  .after .get fun _ => .after (.selectorSlot _ _) fun _ => .after (.codeSlot _ _) fun _ =>
    .after (.requireRoom _ _) fun _ => .require_bind fun _ => .after (.locatePushes _ _ _) fun _ =>
    .after (.setAccessed _ _) fun _ => .bind (.commitCS _ _ _) fun _ => .after (.memWriteAll _ _) fun _ =>
    .after (.moveStackPtr _) fun _ => (Steady.jumpTo _).leads

theorem Leads.gateInterrupt (n : Nat) (software : Bool) (ret : Dword) (code : Option Word) (rfImage : Bool) :
    Leads .pe .pe (gateInterrupt n software ret code rfImage) := by
  refine .by_vm fun s => .require_bind fun _ => .after (.readDesc _) fun _ => .require_bind fun _ =>
    .require_bind fun _ => .require_bind fun _ =>
    .ite (fun _ => .bind ((Leads.interruptTaskGate _ _ _ _).strengthen (ModeFact.ofVm_gives_pe _)) fun _ => .pure _)
      fun _ => .require_bind fun _ => .after (.findDesc _ _) fun _ => .require_bind fun _ => .require_bind fun _ =>
    .require_bind fun _ => .ite (fun _ => ?_) fun h => ?_
  case refine_1 =>
    exact .require_bind fun _ => .ite
      (fun _ => .bind ((Leads.v86Entry _ _ _ _ _ _ _ _).strengthen (ModeFact.ofVm_gives_pe _)) fun _ => .pure _)
      fun _ => .bind (.refuse _) fun _ => .pure _
  case refine_2 =>
    have hvm : ModeFact.ofVm s.flags.vm = .protMode := if_neg h
    rw [hvm]
    refine .ite (fun _ => .bind (.innerInterrupt _ _ _ _ _ _ _ _) fun _ => ?_)
      fun _ => .bind (.sameLevelInterrupt _ _ _ _ _ _ _ _) fun _ => ?_
    all_goals exact .bind ((leads_toHandler _).strengthen ModeFact.protMode_gives_pe) fun _ =>
      (Leads.pure _).weaken ModeFact.protMode_gives_pe

/-- Shutdown leaves CPL and VM such as the mode admits. -/
theorem Sound.shutDown {s : State} (h : Sound .any s) : Sound .any s.shutDown := by
  obtain ⟨hm, ht, -, -, hpg, -⟩ := h.inv
  refine ⟨⟨hm, ht, fun (hpe : s.cr0.pe = false) => ?_, fun hv => if_pos hv, hpg, rfl⟩, trivial⟩
  simp [State.shutDown, hpe]

theorem Leads.enterShutdown : Leads .any .any enterShutdown :=
  .bind (.modify fun _ hs => hs.shutDown) fun _ => .pure _

theorem Leads.realInterrupt (n : Nat) (ret : Dword) : Leads .any .any (realInterrupt n ret) :=
  .after .get fun _ => .ite (fun _ => .ite (fun _ => .enterShutdown) fun _ => .raise _) fun _ =>
    .after (.locatePushes _ _ _) fun _ => .after (.sysRead16 _) fun _ => .after (.sysRead16 _) fun _ =>
    .after (.memWriteAll _ _) fun _ => .after (.moveStackPtr _) fun _ => .after (.modify fun _ => .of_eq rfl) fun _ =>
    .after (.loadCS8086 _) fun _ => .after (.jumpTo _) fun _ => .pure _

theorem Leads.deliverOnce (n : Nat) (software : Bool) (ret : Dword) (code : Option Word) (rfImage : Bool) :
    Leads .any .any (deliverOnce n software ret code rfImage) := by
  intro s hs
  unfold Machine.deliverOnce
  rw [M.get_bind_apply]
  split
  case isTrue h => exact (gateInterrupt _ _ _ _ _).weaken (ModeFact.gives_any _) s ⟨hs.inv, h⟩
  case isFalse h => exact realInterrupt _ _ s hs

@[simp] theorem Leads.softwareInterrupt (n : Nat) : Leads .any .any (softwareInterrupt n) :=
  .after .get fun _ => .bind (.deliverOnce _ _ _ _ _) fun _ => .pure _

theorem Held.noteExn (s : State) (e : Exn) : Held s (s.noteExn e) :=
  .of_eq (by simp [State.standing])

/-- What a fault leaves: the state before it with memory and TLB of the state it was raised in. -/
theorem Sound.afterFault {k : ModeFact} {s t : State} (hs : Sound k s) (ht : Sound .any t) (e : Exn) :
    Sound k (s.afterFault t e) := by
  refine (hs.held (t := { s with mem := t.mem, tlb := t.tlb }) ?_).held
    ⟨fun h => ?_, fun h => ?_, by simp, by simp, by simp, by simp⟩
  · exact ⟨fun _ => ht.inv.mem, fun _ => ht.inv.tlb, rfl, rfl, rfl, rfl⟩
  · simpa using h
  · simpa using h

theorem Leads.attempt {x : M Bool} (hx : Leads .any .any x) : Leads .any .any (attempt x) := by
  intro s hs
  obtain ⟨hok, herr⟩ := hx s hs
  unfold Machine.attempt
  cases e : x s with
  | ok b u => exact ⟨fun _ _ h => by cases h; exact hok _ _ e, fun _ _ h => nomatch h⟩
  | error r u =>
    have hu := herr _ _ e
    cases r with
    | exn r => exact ⟨fun _ _ h => by cases h; exact hs.afterFault hu r, fun _ _ h => nomatch h⟩
    | exnNew r =>
      exact ⟨fun _ _ h => by cases h; exact (hu.held (.noteExn u r)).held (.of_eq rfl), fun _ _ h => nomatch h⟩
    | fault f | refused r => exact ⟨fun _ _ h => (nomatch h), fun _ _ h => by cases h; exact hu⟩

/-- An attempt, with what follows its success and its failure. -/
theorem Leads.attempt_bind {x : M Bool} {f : Except Failure Bool → M β} (hx : Leads .any .any x)
    (hok : ∀ b, Leads .any .any (f (.ok b))) (herr : ∀ e, Leads .any .any (f (.error e))) :
    Leads .any .any (Machine.attempt x >>= f) :=
  .bind hx.attempt fun
    | .ok b => hok b
    | .error e => herr e

theorem Leads.exnOnce (e : Exn) (ret : Dword) : Leads .any .any (exnOnce e ret) :=
  .after (.errorCode e) fun _ => .deliverOnce _ _ _ _ _

theorem Leads.deliverLast {once : M Bool} (h : Leads .any .any once) : Leads .any .any (deliverLast once) :=
  .attempt_bind h (fun _ => .pure _) fun _ => .enterShutdown

theorem Leads.deliverDouble (ret : Dword) : Leads .any .any (deliverDouble ret) := .deliverLast (.exnOnce _ _)

theorem Leads.deliverPage (e : Exn) (ret : Dword) : Leads .any .any (deliverPage e ret) := by
  refine .attempt_bind (.exnOnce e ret) (fun _ => .pure _) fun f => .after (.nextReturn f ret) fun r => ?_
  split
  · exact .deliverLast (.exnOnce _ _)
  · exact .deliverDouble _

theorem Leads.deliverSegment (e : Exn) (ret : Dword) : Leads .any .any (deliverSegment e ret) := by
  refine .attempt_bind (.exnOnce e ret) (fun _ => .pure _) fun f => .after (.nextReturn f ret) fun r => ?_
  split
  · exact .deliverPage _ _
  · exact .deliverDouble _

theorem Leads.deliverSecond (e : Exn) (ret : Dword) : Leads .any .any (deliverSecond e ret) := by
  unfold Machine.deliverSecond
  split
  · exact .deliverDouble _
  · exact .deliverPage _ _
  · exact .deliverSegment _ _

theorem Leads.deliverPlain {once : M Bool} (h : Leads .any .any once) (ret : Dword) :
    Leads .any .any (deliverPlain once ret) :=
  .attempt_bind h (fun _ => .pure _) fun f => .after (.nextReturn f ret) fun _ => .deliverSecond _ _

theorem Leads.deliverExn (e : Exn) (ret : Dword) : Leads .any .any (deliverExn e ret) := by
  cases e with
  | df => exact .deliverDouble _
  | pf => exact .deliverPage _ _
  | ts | np | ss | gp => exact .deliverSegment _ _
  | de | db | br | ud | nm | mf => exact .deliverPlain (.deliverOnce _ _ _ _ _) _

@[simp] theorem Leads.interruptN (n : Byte) : Leads .any .any (interruptN n) :=
  .after .requireIopl86 fun _ => .softwareInterrupt _

@[simp] theorem Leads.interruptOverflow : Leads .any .any interruptOverflow :=
  .after .get fun _ => .ite (fun _ => .softwareInterrupt _) fun _ => .after .advance fun _ => .pure _

@[simp] theorem Leads.returnFar (n : Word) : Leads .any .any (returnFar n) := by
  refine .by_mode fun s => .after (.requireStack _) fun _ => .after (.stackItems _ _ _) fun _ => .by_protMode ?_ ?_
  · exact .bind ((returnCS _ _ _ _).weaken (ModeFact.gives_any _)) fun _ => .pure _
  · exact .after (.farLoad8086 _ _) fun _ => .after (.moveStackPtr _) fun _ => .pure _

/-- The return to Virtual 8086 Mode sets CPL 3 with VM. -/
theorem Leads.returnToV86 (off : Dword) (sel : Word) (fl : Dword) : Leads .pe .pe (returnToV86 off sel fl) :=
  .after (.requireStack _) fun _ => .after (.stackItems _ _ _) fun _ =>
    .bind (.modify fun _ hs => .of_pe hs.inv.mem hs.inv.tlb hs.mode (fun _ => rfl) hs.mode) fun _ =>
    (Steady.jumpTo _).leads

theorem Leads.iretTask : Leads .pe .pe iretTask :=
  .after .get fun _ => .after (.sysRead16 _) fun _ => .require_bind fun _ => .after (.findDesc _ _) fun _ =>
    .require_bind fun _ => .require_bind fun _ => .after .advance fun _ => .taskSwitch _ _ _

theorem Leads.iretProtected : Leads .protMode .pe iretProtected := by
  refine .get_bind (fun _ => id) fun s hs => .ite (fun _ => ?task) fun _ => .after (.requireStack _) fun _ =>
    .after (.stackItems _ _ _) fun _ => .ite (fun _ => ?v86) fun _ => ?sameMode
  case task =>
    exact .after .endNmi fun _ => .bind (iretTask.strengthen ModeFact.protMode_gives_pe) fun _ => .pure _
  case v86 =>
    exact .bind ((returnToV86 _ _ _).strengthen ModeFact.protMode_gives_pe) fun _ => .after .endNmi fun _ => .pure _
  case sameMode =>
    refine .bind (returnCS _ _ _ _) fun _ => .bind (k₁ := .pe) (.modify fun u hu => ?_) fun _ =>
      .after .endNmi fun _ => .pure _
    exact .of_pe hu.inv.mem hu.inv.tlb hu.mode.1 (fun h => absurd (hs.mode.2.symm.trans h) (by decide)) hu.mode.1

@[simp] theorem Leads.interruptReturn : Leads .any .any interruptReturn :=
  .by_mode fun _ => .by_protMode (iretProtected.weaken (ModeFact.gives_any _)) Steady.iret8086.leads

/-! The two instructions that write PE, both at CPL 0 (10_state.md R61). -/

/-- A new CR0 that resets PE only at CPL 0 outside Virtual 8086 Mode, and has PG only with PE. -/
theorem Sound.with_cr0 {k : ModeFact} {s : State} (h : Sound k s) {c : Cr0}
    (hpe : c.pe = false → s.cpl = 0 ∧ s.flags.vm = false) (hpg : c.pg = true → c.pe = true) :
    Sound .any { s with cr0 := c } :=
  ⟨⟨h.inv.mem, h.inv.tlb, hpe, h.inv.virtual, hpg, rfl⟩, trivial⟩

/-- A privileged instruction runs at CPL 0, which Virtual 8086 Mode does not. -/
theorem Leads.requirePrivileged : Leads .any .level0 requirePrivileged := by
  intro s hs
  unfold Machine.requirePrivileged
  rw [M.get_bind_apply]
  cases hp : (!s.cr0.pe || s.cpl == 0) with
  | false => exact Leads.raise _ s hs
  | true =>
    refine Leads.pure _ s ⟨hs.inv, ?_⟩
    cases hpe : s.cr0.pe with
    | false => exact hs.inv.real hpe
    | true =>
      have hcpl : s.cpl = 0 := by simpa [hpe] using hp
      refine ⟨hcpl, Bool.eq_false_iff.2 fun hv => ?_⟩
      exact absurd ((hs.inv.virtual hv).symm.trans hcpl) (by decide)

theorem Leads.writeControl (n : BitVec 3) (v : Dword) : Leads .level0 .any (writeControl n v) := by
  by_cases hn : n = 0
  · subst hn
    refine .ite (fun _ => .refuse _) fun h => .modify fun s hs =>
      hs.with_cr0 (fun _ => hs.mode) fun (hpg : v.getLsbD 31) => ?_
    simpa [hpg, Cr0.ofWord] using h
  · exact (Steady.writeControl hn v).leads.weaken (ModeFact.gives_any _)

@[simp] theorem Leads.moveToControl (n : BitVec 3) (r : Reg) : Leads .any .any (moveToControl n r) :=
  .bind .requirePrivileged fun _ => .after (.getReg _ _) fun _ => .bind (.writeControl _ _) fun _ =>
    Steady.freeStatus.leads

@[simp] theorem Leads.loadMsw (rm : Rm) : Leads .any .any (loadMsw rm) := by
  refine .after .requirePrivileged fun _ => .after (.readRm _ _) fun v => .modify fun s hs => hs.with_cr0 (fun h => ?_)
    fun h => ?_
  · exact hs.inv.real (Bool.or_eq_false_iff.1 h).1
  · exact Bool.or_eq_true_iff.2 (.inl (hs.inv.paging h))

/-! Outcomes. -/

theorem Sound.finish {s t : State} (h : Sound .any t) (d : Done) : Inv (s.finish t d) := by
  refine (h.held (t := s.finish t d) ⟨fun e => ?_, fun e => ?_, ?_, ?_, ?_, ?_⟩).to_inv (s.finish_dec t d) <;> simp [*]

/-- A delivery keeps the invariant, also one that fails. -/
theorem inv_of_delivered {x : M Bool} (hx : Leads .any .any x) {s t : State} (hs : Sound .any s)
    (h : delivered x s = .next t) : Inv t := by
  obtain ⟨hok, herr⟩ := hx s hs
  cases e : x s with
  | ok b u =>
    simp only [delivered, e] at h
    cases h
    exact (hok b u e).inv
  | error r u =>
    have hu := herr r u e
    cases r with
    | exn r | exnNew r =>
      simp only [delivered, e] at h
      cases h
      exact (hu.held (.noteExn u r)).inv
    | fault f | refused r => simp [delivered, e] at h

theorem inv_of_stopped {s t u : State} {r : Trap} (hs : Sound .any s) (ht : Sound .any t)
    (h : stopped s t r = .next u) : Inv u := by
  cases r with
  | exn e => exact inv_of_delivered (.deliverExn _ _) (hs.afterFault ht e).inv.sound h
  | exnNew e => exact inv_of_delivered (.deliverExn _ _) (ht.held (.noteExn t e)).inv.sound h
  | fault f => cases h
  | refused r => cases h

theorem inv_of_runInstr {body : M Done} (hb : Leads .any .any body) {s t : State} (hs : Sound .any s)
    (h : runInstr body s = .next t) : Inv t := by
  obtain ⟨hok, herr⟩ := hb s hs
  cases e : body s with
  | ok d u =>
    rw [runInstr_ok e] at h
    cases h
    exact (hok d u e).finish d
  | error r u =>
    rw [runInstr, e] at h
    exact inv_of_stopped hs (herr r u e) h

theorem inv_of_runSimple {body : M Unit} (hb : Leads .any .any body) {s t : State} (hs : Sound .any s)
    (h : runSimple body s = .next t) : Inv t :=
  inv_of_runInstr (.bind hb fun _ => .after .advance fun _ => .pure _) hs h

/-- Every instruction that answers a next state keeps the invariant; the bytes before an opcode leave something in
progress. -/
theorem exec_sound {i : Instr} {s t : State} (hs : Sound .any s) (h : exec i s = .next t) :
    Sound .any t ∧ (i.isPrefix = false → Inv t) := by
  have whole : Inv t → Sound .any t ∧ (i.isPrefix = false → Inv t) := fun ht => ⟨ht.sound, fun _ => ht⟩
  cases i with
  | segEs | segCs | segSs | segDs | segFs | segGs | opSize | addrSize | lockPrefix | repne | rep =>
    cases h
    exact ⟨hs.held (.of_eq rfl), fun hp => Bool.noConfusion hp⟩
  | movCrR32 n r => exact whole (inv_of_runSimple (.moveToControl n r) hs h)
  | lmsw rm => exact whole (inv_of_runSimple (.loadMsw rm) hs h)
  | jmpPtr | jmpM | callPtr | callM | retFarImm16 | retFar | int3 | intImm8 | into | iret =>
    exact whole (inv_of_runInstr (by simp) hs h)
  | insb | insv | outsb | outsv | joRel8 | jnoRel8 | jbRel8 | jaeRel8 | jeRel8 | jneRel8 | jbeRel8 | jaRel8 | jsRel8
  | jnsRel8 | jpRel8 | jnpRel8 | jlRel8 | jgeRel8 | jleRel8 | jgRel8 | wait | popf | movsb | movsv | cmpsb | cmpsv
  | stosb | stosv | lodsb | lodsv | scasb | scasv | retNearImm16 | retNear | esc | loopne | loope | loop | jcxz
  | callRelv | jmpRelv | jmpRel8 | callRmv | jmpRmv | joRelv | jnoRelv | jbRelv | jaeRelv | jeRelv | jneRelv | jbeRelv
  | jaRelv | jsRelv | jnsRelv | jpRelv | jnpRelv | jlRelv | jgeRelv | jleRelv | jgRelv =>
    exact whole (inv_of_runInstr (Steady.leads (by simp)) hs h)
  | _ =>
    delta exec at h
    exact whole (inv_of_runSimple (Steady.leads (by simp)) hs h)

/-! Fetching and the prefixes. -/

theorem Steady.touchBytes (n k : Nat) : Steady (touchBytes n k) := by
  induction n generalizing k with
  | zero => exact .pure ()
  | succ n ih =>
    exact .bind .get fun _ => .require_bind fun _ => .bind (Touches.translate _ _ _).steady fun _ => ih _

theorem Steady.fetchFrom (n : Nat) : Steady (fetchFrom n) := by
  induction n with
  | zero => exact .raise _
  | succ n ih =>
    refine .bind .get fun s => .unless (.modify fun _ => .of_eq rfl) fun _ => ?_
    split
    · exact .bind (.touchBytes _ _) fun _ => .bind (.modify fun _ => .of_eq rfl) fun _ => .require_bind fun _ => .pure _
    · exact .bind (.touchBytes _ _) fun _ => .ite (.raise _) ih
    · exact .bind (.touchBytes _ _) fun _ => .raise _
    · exact .bind (.touchBytes _ _) fun _ => .refuse _

theorem runPrefixed_inv (n : Nat) {s t : State} (hs : Sound .any s) (h : runPrefixed n s = .next t) : Inv t := by
  induction n generalizing s with
  | zero => exact inv_of_stopped (r := .exn _) hs hs h
  | succ n ih =>
    unfold runPrefixed at h
    have hfetch := Steady.fetchFrom (Config.maxInstrLen + 1)
    split at h
    case h_1 e u hu => exact inv_of_stopped hs (hs.held (hfetch.of_error hu)) h
    case h_2 i u hu =>
      have hsu := hs.held (hfetch.of_ok hu)
      split at h
      case isTrue =>
        cases hx : exec i u with
        | next v =>
          rw [hx] at h
          exact ih (exec_sound hsu hx).1 h
        | fault f | refused r =>
          rw [hx] at h
          cases h
      case isFalse hp => exact (exec_sound hsu h).2 (Bool.eq_false_iff.2 hp)

/-! The boundary. -/

theorem Inv.applyInput {s : State} (h : Inv s) (i : Input) : Inv (s.applyInput i) := by
  cases i with
  | pins p => exact ⟨h.mem, h.tlb, h.real, h.virtual, h.paging, h.idle⟩
  | nmi => exact ⟨h.mem, h.tlb, h.real, h.virtual, h.paging, h.idle⟩
  | reset selfTest =>
    exact ⟨h.mem, reset_inv.tlb, reset_inv.real, reset_inv.virtual, reset_inv.paging, rfl⟩

theorem Inv.takeInput {s : State} (h : Inv s) : Inv s.takeInput := by
  unfold State.takeInput
  split
  case h_1 => exact h
  case h_2 i is _ =>
    have hi : Inv { s with inputs := is } := ⟨h.mem, h.tlb, h.real, h.virtual, h.paging, h.idle⟩
    exact hi.applyInput i

theorem Inv.othersWrite {s : State} (h : Inv s) : Inv s.othersWrite :=
  ⟨State.wf_othersWrite h.mem, by simpa using h.tlb, by simpa using h.real, by simpa using h.virtual,
    by simpa using h.paging, by simpa using h.idle⟩

theorem Inv.boundary {s : State} (h : Inv s) : Inv s.boundary := h.takeInput.othersWrite

theorem Held.takeExact (s : State) : Held s s.takeExact.2 := by
  refine .of_eq ?_
  unfold State.takeExact
  dsimp only
  split <;> rfl

theorem State.takeExact_dec (s : State) : s.takeExact.2.dec = s.dec := by
  unfold takeExact
  dsimp only
  split <;> rfl

theorem Held.dueData (s : State) : Held s s.dueData.2 := (Held.decideHeld s).trans (.takeExact _)

/-- An update that leaves memory, TLB, PE, PG, VM and CPL alone. -/
theorem Sound.update {k : ModeFact} {s t : State} (h : Sound k s) (ht : t.standing = s.standing) : Sound k t :=
  h.held (.of_eq ht)

theorem reportDebug_inv {bs bt rfImage : Bool} {bits : BitVec 4} {s t : State} (hs : Sound .any s)
    (h : reportDebug bs bt bits rfImage s = .next t) : Inv t := by
  refine inv_of_delivered ?_ (hs.update ?_) h
  · exact .deliverPlain (.deliverOnce _ _ _ _ _) _
  · rfl

theorem takeNmi_inv {deliver : M Bool → M Bool} (hd : ∀ x, Leads .any .any x → Leads .any .any (deliver x))
    {s t : State} (hs : Sound .any s) (h : takeNmi deliver s = .next t) : Inv t := by
  refine inv_of_delivered ?_ (hs.update ?_) h
  · exact .bind (hd _ (.deliverOnce _ _ _ _ _)) fun _ => .ite (fun _ => .pure _) fun _ =>
      .after (.modify fun _ => .of_eq rfl) fun _ => .pure _
  · rfl

theorem takeIntr_inv {s t : State} (hs : Sound .any s) (h : takeIntr s = .next t) : Inv t := by
  refine inv_of_delivered ?_ (hs.update ?_) h
  · exact .ite (fun _ => .deliverLast (.deliverOnce _ _ _ _ _)) fun _ => .deliverPlain (.deliverOnce _ _ _ _ _) _
  · rfl

theorem serveExternal_inv {inh : Bool} {goOn : State → Result} {s t : State} (hs : Sound .any s)
    (hgo : goOn s = .next t → Inv t) (h : serveExternal inh s goOn = .next t) : Inv t := by
  unfold serveExternal at h
  split at h
  · exact takeNmi_inv (fun _ hx => .deliverPlain hx _) hs h
  · split at h
    · exact takeIntr_inv hs h
    · exact hgo h

theorem stepRunning_inv {s t : State} (hs : Inv s) (h : stepRunning s = .next t) : Inv t := by
  unfold stepRunning at h
  split at h
  case isTrue => cases h
  case isFalse =>
    dsimp only at h
    generalize hd : (if s.inhibit then (0, s) else s.dueData) = d at h
    have hu : Sound .any { d.2 with inhibit := false } := by
      refine (hs.sound.held (t := d.2) ?_).update rfl
      subst hd
      split
      · exact .refl s
      · exact .dueData s
    split at h
    · exact reportDebug_inv hu h
    · exact serveExternal_inv hu (runPrefixed_inv _ hu) h

theorem stepHalted_inv {s t : State} (hs : Inv s) (h : stepHalted s = .next t) : Inv t := by
  unfold stepHalted at h
  dsimp only at h
  generalize hd : (if s.inhibit then (0, s) else s.takeExact) = d at h
  have hu : Inv { d.2 with inhibit := false } := by
    have hh : Held s d.2 ∧ d.2.dec = s.dec := by
      subst hd
      split
      · exact ⟨.refl s, rfl⟩
      · exact ⟨.takeExact s, s.takeExact_dec⟩
    have hd : Inv d.2 := (hs.sound.held hh.1).to_inv (hh.2.trans hs.idle)
    exact ⟨hd.mem, hd.tlb, hd.real, hd.virtual, hd.paging, hd.idle⟩
  split at h
  · exact reportDebug_inv hu.sound h
  · refine serveExternal_inv hu.sound (fun hgo => ?_) h
    cases hgo
    exact hu

theorem stepShutdown_inv {s t : State} (hs : Inv s) (h : stepShutdown s = .next t) : Inv t := by
  unfold stepShutdown at h
  split at h
  · exact takeNmi_inv (fun _ => .deliverLast) hs.sound h
  · cases h
    exact hs

/-- Settles O55: every step keeps the invariant, since everything a step does keeps it. -/
theorem invariantKept : Obligations.InvariantKept := by
  intro s t hs h
  have hb := hs.boundary
  change stepRunState s.boundary = .next t at h
  unfold stepRunState at h
  split at h
  · exact stepRunning_inv hb h
  · exact stepHalted_inv hb h
  · exact stepShutdown_inv hb h

end Sys2Proof.Machine

/-! Two-operand and one-operand instructions: the shape of their meaning, what the operation computes, and the
obligations O2 to O5. -/

namespace Sys2Proof.Machine

/-! Shapes. -/

/-- The state of a read for writing: LOCK# asserted if the instruction is locked. -/
def State.holding (u : State) : State := { u with dec := { u.dec with held := u.dec.held || u.dec.lock } }

theorem Touched.of_locate {w : Width} {rm : Rm} {write : Bool} {s u : State} {p : Place}
    (hl : locate w rm write s = .ok p u) : Touched s u := (Touches.locate w rm write s).1 _ _ hl

theorem closed_of_locate {w : Width} {rm : Rm} {write : Bool} {s u : State} {p : Place} (c : s.closed = true)
    (hl : locate w rm write s = .ok p u) : u.closed = true := (Touched.of_locate hl).stays c

/-- A read-modify-write of a located operand. -/
theorem aluTo_ok {w : Width} {op : Binary} {rm : Rm} {b : BitVec w.bits} {s u : State} {p : Place} {v : BitVec w.bits}
    {f : Flags} {n : Nat} (c : s.closed = true) (hl : locate w rm true s = .ok p u)
    (hop : op (u.placeValue w p) b u.holding = .ok v { u.holding with flags := f, free := n }) :
    aluTo w op rm b s = .ok () (({ u.holding with flags := f, free := n } : State).withPlace w p v) := by
  have hu := closed_of_locate c hl
  unfold aluTo
  rw [M.bind_ok hl, M.get_bind_apply, M.bind_ok (getPlaceToWrite_closed hu w _ p)]
  exact (M.bind_ok hop _).trans (putPlace_closed (by exact hu) w p v)

/-- A one-operand read-modify-write of a located operand. -/
theorem unaryRm_ok {w : Width} {op : Unary} {rm : Rm} {s u : State} {p : Place} {v : BitVec w.bits} {f : Flags}
    (c : s.closed = true) (hl : locate w rm true s = .ok p u)
    (hop : op (u.placeValue w p) u.holding = .ok v { u.holding with flags := f }) :
    unaryRm w op rm s = .ok () (({ u.holding with flags := f } : State).withPlace w p v) := by
  have hu := closed_of_locate c hl
  unfold unaryRm
  rw [M.bind_ok hl, M.get_bind_apply, M.bind_ok (getPlaceToWrite_closed hu w _ p)]
  exact (M.bind_ok hop _).trans (putPlace_closed (by exact hu) w p v)

/-- An instruction whose meaning is a two-operand read-modify-write. -/
theorem Writes.of_aluTo {w : Width} {op : Binary} {i : Instr} {rm : Rm} {b : BitVec w.bits} {s u : State} {p : Place}
    {v : BitVec w.bits} {f : Flags} (c : s.closed = true) (he : exec i s = runSimple (aluTo w op rm b) s)
    (hl : locate w rm true s = .ok p u)
    (hop : ∃ n, op (u.placeValue w p) b u.holding = .ok v { u.holding with flags := f, free := n }) :
    Writes s i w p v f := by
  obtain ⟨n, hop⟩ := hop
  exact Writes.intro_eq he c hl (aluTo_ok c hl hop) rfl rfl

/-! The seven operations. -/

theorem opAdd_apply {n : Nat} (a b : BitVec n) (x : State) :
    opAdd a b x = .ok (addValue a b false) { x with flags := x.flags.adding a b false } := rfl

theorem opAdc_apply {n : Nat} (a b : BitVec n) (x : State) :
    opAdc a b x = .ok (addValue a b x.flags.cf) { x with flags := x.flags.adding a b x.flags.cf } := rfl

theorem opSub_apply {n : Nat} (a b : BitVec n) (x : State) :
    opSub a b x = .ok (subValue a b false) { x with flags := x.flags.subtracting a b false } := rfl

theorem opSbb_apply {n : Nat} (a b : BitVec n) (x : State) :
    opSbb a b x = .ok (subValue a b x.flags.cf) { x with flags := x.flags.subtracting a b x.flags.cf } := rfl

/-- The next free truth value. -/
def State.anyBool (x : State) : Bool := (Config.freeValue x.free).setWidth 1 == 1

theorem logicResult_apply {n : Nat} (r : BitVec n) (x : State) :
    logicResult r x = .ok r { x with flags := x.flags.logical r x.anyBool, free := x.free + 1 } := rfl

theorem addValue_false {n : Nat} (a b : BitVec n) : addValue a b false = a + b := by simp [addValue]

theorem subValue_false {n : Nat} (a b : BitVec n) : subValue a b false = a - b := by simp [subValue]

/-- The operation of a family of encodings gives the result and the flags of its rule. -/
def AluForms.Means (F : AluForms) (op : Binary) : Prop :=
  ∀ (s x : State) (w : Width) (a b : BitVec w.bits), x.flags = s.flags →
    ∃ v f n, BinaryRule s a b F v f ∧ op a b x = .ok v { x with flags := f, free := n }

theorem addForms_means : addForms.Means opAdd := fun s x w a b hx =>
  ⟨_, _, x.free, .add, (@opAdd_apply _ a b x).trans (by rw [hx, addValue_false])⟩

theorem adcForms_means : adcForms.Means opAdc := fun s x w a b hx =>
  ⟨_, _, x.free, .adc, (@opAdc_apply _ a b x).trans (by rw [hx]; rfl)⟩

theorem subForms_means : subForms.Means opSub := fun s x w a b hx =>
  ⟨_, _, x.free, .sub, (@opSub_apply _ a b x).trans (by rw [hx, subValue_false])⟩

theorem sbbForms_means : sbbForms.Means opSbb := fun s x w a b hx =>
  ⟨_, _, x.free, .sbb, (@opSbb_apply _ a b x).trans (by rw [hx]; rfl)⟩

theorem andForms_means : andForms.Means opAnd := fun s x w a b hx =>
  ⟨_, _, x.free + 1, .and x.anyBool, (logicResult_apply _ x).trans (by rw [hx])⟩

theorem orForms_means : orForms.Means opOr := fun s x w a b hx =>
  ⟨_, _, x.free + 1, .or x.anyBool, (logicResult_apply _ x).trans (by rw [hx])⟩

theorem xorForms_means : xorForms.Means opXor := fun s x w a b hx =>
  ⟨_, _, x.free + 1, .xor x.anyBool, (logicResult_apply _ x).trans (by rw [hx])⟩

theorem runSimple_congr {x y : M Unit} {s : State} (h : x s = y s) : runSimple x s = runSimple y s := by
  unfold runSimple runInstr
  rw [M.bind_apply, M.bind_apply, h]

/-- The encodings of a family all run one operation. -/
structure AluForms.Runs (F : AluForms) (op : Binary) : Prop where
  rm8R8 : ∀ rm r s, exec (F.rm8R8 rm r) s = runSimple (aluRmReg .w8 op rm r) s
  rmvRv : ∀ rm r s, exec (F.rmvRv rm r) s = runSimple (aluRmReg s.vWidth op rm r) s
  r8Rm8 : ∀ r rm s, exec (F.r8Rm8 r rm) s = runSimple (aluRegRm .w8 op r rm) s
  rvRmv : ∀ r rm s, exec (F.rvRmv r rm) s = runSimple (aluRegRm s.vWidth op r rm) s
  alImm8 : ∀ imm s, exec (F.alImm8 imm) s = runSimple (aluTo .w8 op (.reg .eax) imm) s
  eaxImmv : ∀ imm s, exec (F.eaxImmv imm) s = runSimple (aluTo s.vWidth op (.reg .eax) (immV s.vWidth imm)) s
  rm8Imm8 : ∀ rm imm s, exec (F.rm8Imm8 rm imm) s = runSimple (aluTo .w8 op rm imm) s
  rmvImmv : ∀ rm imm s, exec (F.rmvImmv rm imm) s = runSimple (aluTo s.vWidth op rm (immV s.vWidth imm)) s
  rmvSimm8 : ∀ rm imm s, exec (F.rmvSimm8 rm imm) s = runSimple (aluTo s.vWidth op rm (immS s.vWidth imm)) s

theorem addForms_runs : addForms.Runs opAdd :=
  ⟨fun _ _ _ => rfl, fun _ _ _ => rfl, fun _ _ _ => rfl, fun _ _ _ => rfl, fun _ _ => rfl, fun _ _ => rfl,
    fun _ _ _ => rfl, fun _ _ _ => rfl, fun _ _ _ => rfl⟩

theorem adcForms_runs : adcForms.Runs opAdc :=
  ⟨fun _ _ _ => rfl, fun _ _ _ => rfl, fun _ _ _ => rfl, fun _ _ _ => rfl, fun _ _ => rfl, fun _ _ => rfl,
    fun _ _ _ => rfl, fun _ _ _ => rfl, fun _ _ _ => rfl⟩

theorem subForms_runs : subForms.Runs opSub :=
  ⟨fun _ _ _ => rfl, fun _ _ _ => rfl, fun _ _ _ => rfl, fun _ _ _ => rfl, fun _ _ => rfl, fun _ _ => rfl,
    fun _ _ _ => rfl, fun _ _ _ => rfl, fun _ _ _ => rfl⟩

theorem sbbForms_runs : sbbForms.Runs opSbb :=
  ⟨fun _ _ _ => rfl, fun _ _ _ => rfl, fun _ _ _ => rfl, fun _ _ _ => rfl, fun _ _ => rfl, fun _ _ => rfl,
    fun _ _ _ => rfl, fun _ _ _ => rfl, fun _ _ _ => rfl⟩

theorem andForms_runs : andForms.Runs opAnd :=
  ⟨fun _ _ _ => rfl, fun _ _ _ => rfl, fun _ _ _ => rfl, fun _ _ _ => rfl, fun _ _ => rfl, fun _ _ => rfl,
    fun _ _ _ => rfl, fun _ _ _ => rfl, fun _ _ _ => rfl⟩

theorem orForms_runs : orForms.Runs opOr :=
  ⟨fun _ _ _ => rfl, fun _ _ _ => rfl, fun _ _ _ => rfl, fun _ _ _ => rfl, fun _ _ => rfl, fun _ _ => rfl,
    fun _ _ _ => rfl, fun _ _ _ => rfl, fun _ _ _ => rfl⟩

theorem xorForms_runs : xorForms.Runs opXor :=
  ⟨fun _ _ _ => rfl, fun _ _ _ => rfl, fun _ _ _ => rfl, fun _ _ _ => rfl, fun _ _ => rfl, fun _ _ => rfl,
    fun _ _ _ => rfl, fun _ _ _ => rfl, fun _ _ _ => rfl⟩

/-- The forms with an r/m destination run the read-modify-write of their operands. -/
theorem AluForms.Runs.toRm {F : AluForms} {op : Binary} (h : F.Runs op) {s : State} {i : Instr} {w : Width} {rm : Rm}
    {b : BitVec w.bits} (hi : F.ToRm s i w rm b) : exec i s = runSimple (aluTo w op rm b) s := by
  cases hi
  case rm8R8 r => exact (h.rm8R8 rm r s).trans (runSimple_congr rfl)
  case rmvRv r => exact (h.rmvRv rm r s).trans (runSimple_congr rfl)
  case alImm8 => exact h.alImm8 _ s
  case eaxImmv imm => exact h.eaxImmv imm s
  case rm8Imm8 => exact h.rm8Imm8 rm _ s
  case rmvImmv imm => exact h.rmvImmv rm imm s
  case rmvSimm8 imm => exact h.rmvSimm8 rm imm s

/-- The forms with a register destination read the r/m source first. -/
theorem AluForms.Runs.fromRm {F : AluForms} {op : Binary} (h : F.Runs op) {s : State} {i : Instr} {w : Width} {r : Reg}
    {rm : Rm} (hi : F.FromRm s i w r rm) : exec i s = runSimple (aluRegRm w op r rm) s := by
  cases hi
  case r8Rm8 => exact h.r8Rm8 r rm s
  case rvRmv => exact h.rvRmv r rm s

/-- Each of the seven families has its operation. -/
theorem binaryForms_runs {F : AluForms} (hF : F ∈ binaryForms) : ∃ op : Binary, F.Runs op ∧ F.Means op := by
  simp only [binaryForms, List.mem_cons, List.not_mem_nil, or_false] at hF
  rcases hF with rfl | rfl | rfl | rfl | rfl | rfl | rfl
  · exact ⟨opAdd, addForms_runs, addForms_means⟩
  · exact ⟨opAdc, adcForms_runs, adcForms_means⟩
  · exact ⟨opSub, subForms_runs, subForms_means⟩
  · exact ⟨opSbb, sbbForms_runs, sbbForms_means⟩
  · exact ⟨opAnd, andForms_runs, andForms_means⟩
  · exact ⟨opOr, orForms_runs, orForms_means⟩
  · exact ⟨opXor, xorForms_runs, xorForms_means⟩

/-- Settles O2: every encoding runs one read-modify-write, and its operation is that of the rule. -/
theorem binaryToRmResult : Obligations.BinaryToRmResult := by
  intro s u F i w rm b p c hF hi hl
  obtain ⟨op, runs, means⟩ := binaryForms_runs hF
  obtain ⟨v, f, n, rule, hop⟩ := means s u.holding w (u.placeValue w p) b (Touched.of_locate hl).flags
  exact ⟨v, f, rule, .of_aluTo c (runs.toRm hi) hl ⟨n, hop⟩⟩

/-- Settles O3: the source is read where it was located, then the register is the place written. -/
theorem binaryFromRmResult : Obligations.BinaryFromRmResult := by
  intro s u F i w r rm p c hF hi hl
  have h := Touched.of_locate hl
  obtain ⟨op, runs, means⟩ := binaryForms_runs hF
  obtain ⟨v, f, n, rule, hop⟩ := means s u.holding w (s.regs.read w r) (u.placeValue w p) h.flags
  rw [← h.regs] at hop
  refine ⟨v, f, rule, ?_⟩
  have hb : aluRegRm w op r rm s = .ok () (({ u.holding with flags := f, free := n } : State).withReg w r v) := by
    unfold aluRegRm
    rw [M.bind_ok (readRm_ok c hl)]
    exact aluTo_ok (op := op) (rm := .reg r) (p := .reg r) (h.stays c) rfl hop
  exact Sets.intro_eq (runs.fromRm hi) c h hb (by rw [← h.regs]; rfl) rfl rfl

/-! CMP and TEST. -/

/-- A comparison of a located operand writes flags only. -/
theorem testTo_ok {w : Width} {op : Binary} {rm : Rm} {b : BitVec w.bits} {s u : State} {p : Place} {v : BitVec w.bits}
    {f : Flags} {n : Nat} (c : s.closed = true) (hl : locate w rm false s = .ok p u)
    (hop : op (u.placeValue w p) b u = .ok v { u with flags := f, free := n }) :
    testTo w op rm b s = .ok () { u with flags := f, free := n } := by
  unfold testTo
  rw [M.bind_ok (readRm_ok c hl), M.bind_ok hop]
  rfl

theorem cmpForms_toRm {s : State} {i : Instr} {w : Width} {rm : Rm} {b : BitVec w.bits}
    (h : cmpForms.ToRm s i w rm b) : exec i s = runSimple (testTo w opSub rm b) s := by
  cases h
  case rm8R8 r => exact runSimple_congr (x := testRmReg .w8 opSub rm r) rfl
  case rmvRv r => exact runSimple_congr (x := testRmReg s.vWidth opSub rm r) rfl
  case alImm8 | eaxImmv | rm8Imm8 | rmvImmv | rmvSimm8 => rfl

theorem cmpForms_fromRm {s : State} {i : Instr} {w : Width} {r : Reg} {rm : Rm} (h : cmpForms.FromRm s i w r rm) :
    exec i s = runSimple (testRegRm w opSub r rm) s := by
  cases h
  case r8Rm8 | rvRmv => rfl

theorem testForm_runs {s : State} {i : Instr} {w : Width} {rm : Rm} {b : BitVec w.bits} (h : TestForm s i w rm b) :
    exec i s = runSimple (testTo w opAnd rm b) s := by
  cases h
  case rm8R8 r => exact runSimple_congr (x := testRmReg .w8 opAnd rm r) rfl
  case rmvRv r => exact runSimple_congr (x := testRmReg s.vWidth opAnd rm r) rfl
  case alImm8 | eaxImmv | rm8Imm8 | rmvImmv => rfl

/-- Settles O4: the operand is read, the operation runs for its flags, and its answer is dropped. -/
theorem compareAndTestSetFlagsOnly : Obligations.CompareAndTestSetFlagsOnly := by
  intro s u i w rm p c hl
  have h := Touched.of_locate hl
  refine ⟨fun b hi => ?_, fun r hi => ?_, fun b hi => ⟨u.anyBool, ?_⟩⟩
  · rw [← h.regs, ← h.flags]
    exact Sets.intro_eq (cmpForms_toRm hi) c h (testTo_ok c hl (n := u.free) (opSub_apply _ _ u)) rfl rfl rfl
  · rw [← h.regs, ← h.flags]
    have hb : testRegRm w opSub r rm s =
        .ok () { u with flags := u.flags.subtracting (u.regs.read w r) (u.placeValue w p) false } := by
      unfold testRegRm
      rw [M.bind_ok (readRm_ok c hl)]
      exact testTo_ok (h.stays c) rfl (n := u.free) (opSub_apply _ _ u)
    exact Sets.intro_eq (cmpForms_fromRm hi) c h hb rfl rfl rfl
  · rw [← h.regs, ← h.flags]
    exact Sets.intro_eq (testForm_runs hi) c h (testTo_ok c hl (logicResult_apply _ u)) rfl rfl rfl

/-! INC, DEC, NEG and NOT. -/

theorem opInc_apply {n : Nat} (a : BitVec n) (x : State) :
    opInc a x = .ok (a + 1) { x with flags := { x.flags.adding a 1 false with cf := x.flags.cf } } := by
  rw [← addValue_false]
  rfl

theorem opDec_apply {n : Nat} (a : BitVec n) (x : State) :
    opDec a x = .ok (a - 1) { x with flags := { x.flags.subtracting a 1 false with cf := x.flags.cf } } := by
  rw [← subValue_false]
  rfl

theorem opNeg_apply {n : Nat} (a : BitVec n) (x : State) :
    opNeg a x = .ok (0 - a) { x with flags := x.flags.subtracting 0 a false } := by
  rw [← subValue_false]
  rfl

theorem opNot_apply {n : Nat} (a : BitVec n) (x : State) : opNot a x = .ok (~~~a) x := rfl

/-- Each encoding runs one operation, whose answer and flags are those of its form. -/
theorem unaryForm_runs {s : State} {i : Instr} {w : Width} {rm : Rm} {g : BitVec w.bits → BitVec w.bits}
    {f : BitVec w.bits → Flags} (h : UnaryForm s i w rm g f) :
    ∃ op : Unary, exec i s = runSimple (unaryRm w op rm) s ∧
      ∀ (x : State) (a : BitVec w.bits), x.flags = s.flags → op a x = .ok (g a) { x with flags := f a } := by
  cases h
  case incRv | incRm8 | incRmv => exact ⟨opInc, rfl, fun x a hx => (@opInc_apply _ a x).trans (by rw [hx])⟩
  case decRv | decRm8 | decRmv => exact ⟨opDec, rfl, fun x a hx => (@opDec_apply _ a x).trans (by rw [hx])⟩
  case negRm8 | negRmv => exact ⟨opNeg, rfl, fun x a hx => (@opNeg_apply _ a x).trans (by rw [hx])⟩
  case notRm8 | notRmv => exact ⟨opNot, rfl, fun x a hx => (@opNot_apply _ a x).trans (by dsimp only; rw [← hx])⟩

/-! One byte of RAM with other masters on the bus. -/

/-- The state in which a bus cycle runs: the other masters have written, unless LOCK# holds them off. -/
def State.afterGap (s : State) : State := if s.dec.held then s else s.othersWrite

theorem State.afterGap_held {s : State} (h : s.dec.held = true) : s.afterGap = s := if_pos h

theorem State.afterGap_free {s : State} (h : s.dec.held = false) : s.afterGap = s.othersWrite := by
  rw [afterGap, h]
  rfl

theorem State.afterGap_map {s : State} (h : s.map = []) : s.afterGap.map = [] := by
  rw [afterGap]
  split
  · exact h
  · rw [othersWrite_map, h]

theorem readAt_one (m : Memory) (p : Dword) : BitVec.ofNat 8 (m.readAt [p]) = m.read p.toNat := by
  simp [Memory.readAt]

theorem memRead_one {s : State} (h : s.map = []) (p : Dword) :
    memRead [p] s = .ok (s.afterGap.mem.readAt [p]) s.afterGap := by
  have cycle : readCycle [p] s = .ok (s.afterGap.mem.readAt [p]) s.afterGap := by
    unfold readCycle
    rw [M.bind_ok (busGap_apply s), M.get_bind_apply, ← State.afterGap, State.kindAt_none (State.afterGap_map h)]
    rfl
  rw [memRead, busCycles, readCycles, readCycles, M.pure_bind_apply, M.bind_ok cycle]
  simp

theorem memWrite_one {s : State} (h : s.map = []) (p : Dword) (v : Nat) :
    memWrite [p] v s = .ok () (s.afterGap.putByte p (BitVec.ofNat 8 v)) := by
  have cycle : writeCycle [p] v s = .ok () (s.afterGap.putByte p (BitVec.ofNat 8 v)) := by
    unfold writeCycle
    rw [M.bind_ok (busGap_apply s), M.get_bind_apply, ← State.afterGap, State.kindAt_none (State.afterGap_map h)]
    rfl
  rw [memWrite, busCycles, writeCycles, writeCycles, M.pure_bind_apply, cycle]

/-- The state in which a byte is read that is written next: the other masters have had the bus once, and LOCK# is
asserted if the instruction is locked. -/
def State.readFirst (s : State) (lock : Bool) : State :=
  { s.othersWrite with dec := { s.othersWrite.dec with held := lock } }

theorem State.readFirst_false {s : State} (hh : s.dec.held = false) : s.readFirst false = s.othersWrite := by
  have hd : s.othersWrite.dec.held = false := by rw [State.othersWrite_dec, hh]
  rw [readFirst, ← hd]

/-- The cycle after it: what the other masters write before it. -/
theorem State.afterGap_readFirst {s : State} (hh : s.dec.held = false) (lock : Bool) :
    (s.readFirst lock).afterGap.regs = s.regs ∧
      (s.readFirst lock).afterGap.mem = (if lock then s.othersWrite else s.othersWrite.othersWrite).mem ∧
      (s.readFirst lock).afterGap.masters = (if lock then s.othersWrite else s.othersWrite.othersWrite).masters := by
  cases lock with
  | false =>
    have hd : s.othersWrite.dec.held = false := by rw [State.othersWrite_dec, hh]
    rw [readFirst_false hh, afterGap_free hd]
    exact ⟨by rw [othersWrite_regs, othersWrite_regs], rfl, rfl⟩
  | true =>
    rw [afterGap_held rfl]
    exact ⟨s.othersWrite_regs, rfl, rfl⟩

theorem getPlaceToWrite_byte {s : State} (h : s.map = []) (hh : s.dec.held = false) (lock : Bool) (p : Dword) :
    getPlaceToWrite .w8 lock (.mem [p]) s = .ok (s.othersWrite.mem.read p.toNat) (s.readFirst lock) := by
  have get : ∀ {u : State}, u.map = [] → getPlace .w8 (.mem [p]) u = .ok (u.afterGap.mem.read p.toNat) u.afterGap := by
    intro u hu
    rw [getPlace, M.bind_ok (memRead_one hu p), M.pure_apply]
    exact congrArg (EStateM.Result.ok · _) (readAt_one _ p)
  have hm : s.othersWrite.map = [] := by rw [State.othersWrite_map, h]
  cases lock with
  | false =>
    rw [getPlaceToWrite, if_neg (by decide)]
    refine (get h).trans ?_
    rw [State.afterGap_free hh, State.readFirst_false hh]
  | true =>
    have lock : assertLock s = .ok () (s.readFirst true) := by
      rw [assertLock, M.bind_ok (busGap_apply s), hh]
      rfl
    rw [getPlaceToWrite, if_pos rfl, M.bind_ok lock]
    refine (get (by exact hm)).trans ?_
    rw [State.afterGap_held rfl]
    rfl

/-- Settles O5: the operation runs between the read and the write; with other masters a bus cycle on one byte is one
moment at which they write. -/
theorem unaryResultAndFlags : Obligations.UnaryResultAndFlags := by
  refine ⟨?_, ?_⟩
  · intro s u i w rm g f p c hi hl
    obtain ⟨op, he, hop⟩ := unaryForm_runs hi
    exact Writes.intro_eq he c hl (unaryRm_ok c hl (hop u.holding _ (Touched.of_locate hl).flags)) rfl rfl
  · intro s u ea p hm hh hl
    have h := Touched.of_locate hl
    have hlock : u.dec.lock = s.dec.lock := by rw [h.rest]
    let v := u.readFirst s.dec.lock
    have hv : v.map = [] := by rw [← hm]; exact State.othersWrite_map u
    have hb : unaryRm .w8 opNot (.mem ea) s =
        .ok () (v.afterGap.putByte p (BitVec.ofNat 8 (~~~(u.othersWrite.mem.read p.toNat)).toNat)) := by
      unfold unaryRm
      rw [M.bind_ok hl, M.get_bind_apply, hlock, M.bind_ok (getPlaceToWrite_byte hm hh _ p)]
      exact memWrite_one hv p _
    obtain ⟨hr, hmem, hmast⟩ := State.afterGap_readFirst hh s.dec.lock
    refine ⟨_, runSimple_ok hb, ?_, ?_, ?_⟩
    · rw [State.finish_regs]
      exact hr.trans h.regs
    · rw [State.finish_masters]
      exact hmast
    · rw [State.finish_mem, ← hmem, BitVec.ofNat_toNat, BitVec.setWidth_eq]
      rfl

end Sys2Proof.Machine

/-! Multiplication, division, decimal and ASCII adjustment: obligations O6 to O10. -/

namespace Sys2Proof.Machine

/-! What fits. -/

theorem signedOverflow_eq_false_iff (w : Width) (p : Int) : signedOverflow w p = false ↔ Fits true w.bits p := by
  have half : 2 ^ w.bits = 2 * 2 ^ (w.bits - 1) := by cases w <;> rfl
  have back : (BitVec.ofInt w.bits p).toInt = p.bmod (2 ^ w.bits) := BitVec.toInt_ofInt p
  simp only [signedOverflow, decide_eq_false_iff_not, not_not, Fits, if_true, back]
  rw [Int.bmod_eq_iff (by positivity), half]
  push_cast
  constructor
  · rintro ⟨hlo, hhi, -⟩
    omega
  · rintro ⟨hlo, hhi⟩
    exact ⟨by omega, by omega, by simp⟩

theorem fits_false_natCast {n v : Nat} : Fits false n v ↔ v < 2 ^ n := by
  simp only [Fits, Bool.false_eq_true, if_false, Int.natCast_nonneg, true_and]
  exact_mod_cast Iff.rfl

/-! Products. -/

/-- The state with a double-width result. -/
theorem putWide_apply (w : Width) (v : Nat) (x : State) :
    putWide w v x = .ok () { x with regs := x.regs.withDouble w (BitVec.ofNat _ v) } := by
  have cut : ∀ (n k m : Nat), k + m = n → (BitVec.ofNat n v).extractLsb' k m = BitVec.ofNat m (v / 2 ^ k) := by
    rintro n k m rfl
    apply BitVec.eq_of_toNat_eq
    rw [BitVec.extractLsb'_toNat, BitVec.toNat_ofNat, BitVec.toNat_ofNat, Nat.shiftRight_eq_div_pow, Nat.pow_add,
      Nat.mod_mul_right_div_self, Nat.mod_mod]
  have low : ∀ (n m : Nat), m ≤ n → (BitVec.ofNat n v).extractLsb' 0 m = BitVec.ofNat m v := by
    intro n m h
    apply BitVec.eq_of_toNat_eq
    rw [BitVec.extractLsb'_toNat, BitVec.toNat_ofNat, BitVec.toNat_ofNat, Nat.shiftRight_zero,
      Nat.mod_mod_of_dvd _ (Nat.pow_dvd_pow 2 h)]
  cases w with
  | w8 =>
    have e : (BitVec.ofNat (2 * Width.w8.bits) v).setWidth 16 = BitVec.ofNat 16 v := BitVec.setWidth_eq _
    rw [Regs.withDouble, e]
    rfl
  | w16 =>
    have lo := low (2 * Width.w16.bits) 16 (by decide)
    have hi := cut (2 * Width.w16.bits) 16 16 rfl
    rw [Regs.withDouble, lo, hi]
    rfl
  | w32 =>
    have lo := low (2 * Width.w32.bits) 32 (by decide)
    have hi := cut (2 * Width.w32.bits) 32 32 rfl
    rw [Regs.withDouble, lo, hi]
    rfl

theorem mulFlags_apply (high : Bool) (x : State) :
    mulFlags high x = .ok () { x with flags := { x.flags.freeStatus ((Config.freeValue x.free).setWidth 6) with
                                                 cf := high, of := high }, free := x.free + 1 } := rfl

/-- One-operand MUL and IMUL run the product of accumulator and operand, as numbers of the right sign. -/
def multiplyAs (signed : Bool) (w : Width) (rm : Rm) : M Unit :=
  if signed then multiplySigned w rm else multiply w rm

theorem mulForm_runs {s : State} {i : Instr} {w : Width} {rm : Rm} {signed : Bool} (h : MulForm s i w rm signed) :
    exec i s = runSimple (multiplyAs signed w rm) s := by
  cases h
  case mulRm8 | mulRmv | imulRm8 | imulRmv => rfl

theorem multiplyAs_ok {s u : State} {w : Width} {rm : Rm} {p : Place} {signed : Bool} (c : s.closed = true)
    (hl : locate w rm false s = .ok p u) :
    let product := asInt signed (u.regs.read w .eax) * asInt signed (u.placeValue w p)
    ∃ any high, (high = false ↔ Fits signed w.bits product) ∧ multiplyAs signed w rm s =
      .ok () { u with regs := u.regs.withDouble w (BitVec.ofInt _ product),
                      flags := { u.flags.freeStatus any with cf := high, of := high }, free := u.free + 1 } := by
  cases signed with
  | false =>
    refine ⟨(Config.freeValue u.free).setWidth 6,
      decide (2 ^ w.bits ≤ (u.regs.read w .eax).toNat * (u.placeValue w p).toNat), ?_, ?_⟩
    rotate_left
    · dsimp only [multiplyAs, asInt]
      rw [if_neg (by decide), multiply, M.bind_ok (readRm_ok c hl), M.bind_ok (getReg_apply _ _ _),
        M.bind_ok (putWide_apply _ _ _), mulFlags_apply]
      simp only [Bool.false_eq_true, if_false, ← Int.natCast_mul, BitVec.ofInt_natCast]
    · simp only [asInt, Bool.false_eq_true, if_false, ← Int.natCast_mul, fits_false_natCast, decide_eq_false_iff_not,
        not_le]
  | true =>
    refine ⟨(Config.freeValue u.free).setWidth 6, _, signedOverflow_eq_false_iff w _, ?_⟩
    dsimp only [multiplyAs, asInt]
    rw [if_pos rfl, multiplySigned, M.bind_ok (readRm_ok c hl), M.bind_ok (getReg_apply _ _ _),
      M.bind_ok (putWide_apply _ _ _), mulFlags_apply, BitVec.ofNat_toNat, BitVec.setWidth_eq]
    rfl

theorem multiplyInto_apply (w : Width) (r : Reg) (a b : BitVec w.bits) (x : State) :
    multiplyInto w r a b x =
      .ok () { x with regs := x.regs.write w r (BitVec.ofInt w.bits (a.toInt * b.toInt)),
                      flags := { x.flags.freeStatus ((Config.freeValue x.free).setWidth 6) with
                                 cf := signedOverflow w (a.toInt * b.toInt),
                                 of := signedOverflow w (a.toInt * b.toInt) }, free := x.free + 1 } := rfl

/-- IMUL with two or three operands leaves the product of the operand and the other factor. -/
theorem mulRegForm_runs {s u : State} {i : Instr} {w : Width} {r : Reg} {rm : Rm} {b : BitVec w.bits} {p : Place}
    (c : s.closed = true) (hl : locate w rm false s = .ok p u) (h : MulRegForm s i w r rm b) :
    ∃ body x y, exec i s = runSimple body s ∧ body s = multiplyInto w r x y u ∧
      x.toInt * y.toInt = (u.placeValue w p).toInt * b.toInt := by
  have hr := (Touched.of_locate hl).regs
  cases h
  case two =>
    refine ⟨multiplyReg s.vWidth r rm, s.regs.read s.vWidth r, u.placeValue _ p, rfl, ?_, Int.mul_comm _ _⟩
    rw [multiplyReg, M.bind_ok (readRm_ok c hl), ← hr]
    rfl
  case immv imm =>
    refine ⟨multiplyImm s.vWidth r rm (immV s.vWidth imm), u.placeValue _ p, _, rfl, ?_, rfl⟩
    rw [multiplyImm, M.bind_ok (readRm_ok c hl)]
    rfl
  case simm8 imm =>
    refine ⟨multiplyImm s.vWidth r rm (immS s.vWidth imm), u.placeValue _ p, _, rfl, ?_, rfl⟩
    rw [multiplyImm, M.bind_ok (readRm_ok c hl)]
    rfl

/-- Settles O6. -/
theorem multiplyGivesProduct : Obligations.MultiplyGivesProduct := by
  intro s u i w rm p c hl
  have h := Touched.of_locate hl
  refine ⟨fun signed hi => ?_, fun r b hi => ?_⟩
  · obtain ⟨any, high, hfit, hb⟩ := multiplyAs_ok (signed := signed) c hl
    rw [h.regs, h.flags] at hb
    rw [h.regs] at hfit
    exact ⟨any, high, hfit, Sets.intro_eq (mulForm_runs hi) c h hb rfl rfl rfl⟩
  · obtain ⟨body, x, y, he, hb, hxy⟩ := mulRegForm_runs c hl hi
    rw [multiplyInto_apply, hxy, h.regs, h.flags] at hb
    exact ⟨_, _, signedOverflow_eq_false_iff w _, Sets.intro_eq he c h hb rfl rfl rfl⟩

/-! Tests in a sequence. -/

theorem require_pass {α : Type} {ok : Bool} (h : ok = true) (e : Exn) (f : Unit → M α) (s : State) :
    (require ok e >>= f) s = f () s := by
  rw [h]
  rfl

theorem require_fail {α : Type} {ok : Bool} (h : ok = false) (e : Exn) (f : Unit → M α) (s : State) :
    (require ok e >>= f) s = .error (.exn e) s := by
  rw [h]
  rfl

/-! Quotients. -/

/-- Quotient and remainder are determined by their equation, the size and the sign of the remainder. -/
theorem tdiv_tmod_of_eq {n d q r : Int} (hd : d ≠ 0) (he : n = q * d + r) (hr : |r| < |d|) (hp : 0 < r → 0 < n)
    (hn : r < 0 → n < 0) : n.tdiv d = q ∧ n.tmod d = r := by
  have hr' : |r| < (d.natAbs : Int) := by rwa [← Int.abs_eq_natAbs]
  rw [abs_lt] at hr'
  have he' : r + d * q = n := by rw [he, Int.mul_comm, Int.add_comm]
  rcases le_total 0 n with h | h
  · exact (Int.tdiv_tmod_unique h hd).2 ⟨he', by omega, by omega⟩
  · exact (Int.tdiv_tmod_unique' h hd).2 ⟨he', by omega, by omega⟩

theorem double_toNat (g : Regs) (w : Width) : (g.double w).toNat = g.wide w := by
  cases w with
  | w8 => rfl
  | w16 => exact (toNat_append_eq _ _).trans (by rw [Nat.mul_comm]; rfl)
  | w32 => exact (toNat_append_eq _ _).trans (by rw [Nat.mul_comm]; rfl)

/-- DIV and IDIV, as one meaning. -/
def divideAs (signed : Bool) (w : Width) (rm : Rm) : M Unit := if signed then divideSigned w rm else divide w rm

theorem divForm_runs {s : State} {i : Instr} {w : Width} {rm : Rm} {signed : Bool} (h : DivForm s i w rm signed) :
    exec i s = runSimple (divideAs signed w rm) s := by
  cases h
  case divRm8 | divRmv | idivRm8 | idivRmv => rfl

theorem putQuotient_apply (w : Width) (q r : BitVec w.bits) (x : State) :
    putQuotient w q r x = .ok () { x with regs := x.regs.withQuotient w q r } := by
  cases w <;> rfl

theorem freeStatus_apply (x : State) :
    freeStatus x = .ok () { x with flags := x.flags.freeStatus ((Config.freeValue x.free).setWidth 6),
                                   free := x.free + 1 } := rfl

/-- The quotient DIV and IDIV test, of the dividend `n` and the divisor `d`. -/
def Divided (s u : State) (w : Width) (signed : Bool) (body : M Unit) (n : Int) (d : BitVec w.bits) : Prop :=
  (d = 0 → body s = .error (.exn .de) u) ∧
  (d ≠ 0 → ¬ Fits signed w.bits (n.tdiv (asInt signed d)) → body s = .error (.exn .de) u) ∧
  (d ≠ 0 → Fits signed w.bits (n.tdiv (asInt signed d)) → ∃ any, body s =
    .ok () { u with regs := u.regs.withQuotient w (BitVec.ofInt _ (n.tdiv (asInt signed d)))
                              (BitVec.ofInt _ (n.tmod (asInt signed d))),
                    flags := u.flags.freeStatus any, free := u.free + 1 })

theorem divide_divided {s u : State} {w : Width} {rm : Rm} {p : Place} (c : s.closed = true)
    (hl : locate w rm false s = .ok p u) :
    Divided s u w false (divide w rm) (asInt false (u.regs.double w)) (u.placeValue w p) := by
  generalize hd : u.placeValue w p = d
  have he : ((u.regs.wide w : Int).tdiv (d.toNat : Int)) = ((u.regs.wide w / d.toNat : Nat) : Int) := rfl
  have hm : ((u.regs.wide w : Int).tmod (d.toNat : Int)) = ((u.regs.wide w % d.toNat : Nat) : Int) := rfl
  simp only [Divided, asInt, Bool.false_eq_true, if_false, double_toNat, he, hm, fits_false_natCast,
    BitVec.ofInt_natCast]
  rw [divide, M.bind_ok (readRm_ok c hl), hd, M.get_bind_apply]
  refine ⟨fun h0 => ?_, fun h0 hf => ?_, fun h0 hf => ⟨(Config.freeValue u.free).setWidth 6, ?_⟩⟩
  · rw [require_fail (decide_eq_false (not_not.2 h0))]
  · rw [require_pass (decide_eq_true h0), require_fail (decide_eq_false hf)]
  · rw [require_pass (decide_eq_true h0), require_pass (decide_eq_true hf),
      M.bind_ok (putQuotient_apply _ _ _ _), freeStatus_apply]

theorem divideSigned_divided {s u : State} {w : Width} {rm : Rm} {p : Place} (c : s.closed = true)
    (hl : locate w rm false s = .ok p u) :
    Divided s u w true (divideSigned w rm) (asInt true (u.regs.double w)) (u.placeValue w p) := by
  generalize hd : u.placeValue w p = d
  have hn : BitVec.ofNat (2 * w.bits) (u.regs.wide w) = u.regs.double w := by
    rw [← double_toNat, BitVec.ofNat_toNat, BitVec.setWidth_eq]
  simp only [Divided, asInt, if_true, ← signedOverflow_eq_false_iff]
  rw [divideSigned, M.bind_ok (readRm_ok c hl), hd, M.get_bind_apply, hn]
  refine ⟨fun h0 => ?_, fun h0 hf => ?_, fun h0 hf => ⟨(Config.freeValue u.free).setWidth 6, ?_⟩⟩
  · rw [require_fail (decide_eq_false (not_not.2 h0))]
  · rw [require_pass (decide_eq_true h0), require_fail (by simpa using hf)]
  · rw [require_pass (decide_eq_true h0), require_pass (by simp [hf]),
      M.bind_ok (putQuotient_apply _ _ _ _), freeStatus_apply]

theorem divideAs_divided {s u : State} {w : Width} {rm : Rm} {p : Place} (c : s.closed = true)
    (hl : locate w rm false s = .ok p u) (signed : Bool) :
    Divided s u w signed (divideAs signed w rm) (asInt signed (u.regs.double w)) (u.placeValue w p) := by
  cases signed with
  | false => exact divide_divided c hl
  | true => exact divideSigned_divided c hl

theorem asInt_eq_zero_iff {n : Nat} (signed : Bool) (a : BitVec n) : asInt signed a = 0 ↔ a = 0 := by
  cases signed with
  | false => exact ⟨fun h => BitVec.eq_of_toNat_eq (by simpa [asInt] using h), fun h => by simp [asInt, h]⟩
  | true => exact ⟨fun h => BitVec.eq_of_toInt_eq (by simpa [asInt] using h), fun h => by simp [asInt, h]⟩

/-- Settles O7: the quotient and remainder of the rule are those of truncating division. -/
theorem divideGivesQuotientOrFaults : Obligations.DivideGivesQuotientOrFaults := by
  intro s u i w rm signed p c hi hl n d
  have h := Touched.of_locate hl
  have he := divForm_runs hi
  obtain ⟨zero, wide, fits⟩ := divideAs_divided c hl signed
  rw [h.regs, h.flags] at fits
  rw [h.regs] at wide
  refine ⟨fun h0 => he.trans (runSimple_exn (zero ((asInt_eq_zero_iff _ _).1 h0))), ?_⟩
  intro q r hq hr hp hn
  have hd : d ≠ 0 := fun h0 => by simp [h0] at hr; exact absurd hr (not_lt.2 (abs_nonneg r))
  have hd' : u.placeValue w p ≠ 0 := fun h0 => hd ((asInt_eq_zero_iff _ _).2 h0)
  obtain ⟨tq, tr⟩ := tdiv_tmod_of_eq hd hq hr hp hn
  rw [tq] at wide
  rw [tq, tr] at fits
  refine ⟨fun hf => ?_, fun hf => he.trans (runSimple_exn (wide hd' hf))⟩
  obtain ⟨any, hb⟩ := fits hd' hf
  exact ⟨any, Sets.intro_eq he c h hb rfl rfl rfl⟩

/-! Decimal and ASCII adjustment. -/

theorem decimalAdjust_apply (f : Byte → Bool → Bool → Adjusted) (s : State) :
    let r := f (s.regs.read .w8 .eax) s.flags.cf s.flags.af
    decimalAdjust f s = .ok () { s with regs := s.regs.write .w8 .eax r.al,
                                        flags := { s.flags.szp r.al with cf := r.cf, af := r.af, of := s.anyBool },
                                        free := s.free + 1 } := rfl

/-- The two adjustments of AL by one sum. -/
theorem adjustDaa_eq (al : Byte) (cf af : Bool) :
    let low := decide (al.toNat % 16 > 9) || af
    let high := decide (al.toNat > 0x99) || cf
    adjustDaa al cf af =
      ⟨al + ((if low then 6 else 0) + (if high then 0x60 else 0)), high, low⟩ := by
  intro low high
  have : adjustDaa al cf af = ⟨if high then (if low then al + 6 else al) + 0x60 else if low then al + 6 else al,
    high, low⟩ := rfl
  rw [this]
  cases low <;> cases high <;> simp [BitVec.add_assoc]

theorem adjustDas_eq (al : Byte) (cf af : Bool) :
    let low := decide (al.toNat % 16 > 9) || af
    let high := decide (al.toNat > 0x99) || cf
    adjustDas al cf af =
      ⟨al - ((if low then 6 else 0) + (if high then 0x60 else 0)), high || (low && decide (al.toNat < 6)), low⟩ := by
  intro low high
  have carry : (high || (low && (cf || decide (al.toNat < 6)))) = (high || (low && decide (al.toNat < 6))) := by
    cases hc : cf with
    | false => rfl
    | true => simp [high, hc]
  have : adjustDas al cf af = ⟨if high then (if low then al - 6 else al) - 0x60 else if low then al - 6 else al,
    high || (low && (cf || decide (al.toNat < 6))), low⟩ := rfl
  rw [this, carry]
  cases low <;> cases high <;> simp
  bv_omega

/-- Settles O8. -/
theorem decimalAdjustGivesAl : Obligations.DecimalAdjustGivesAl := by
  intro s c al low high adjust
  refine ⟨⟨s.anyBool, ?_⟩, ⟨s.anyBool, ?_⟩⟩
  · have hb := decimalAdjust_apply adjustDaa s
    rw [adjustDaa_eq] at hb
    exact Sets.intro_eq rfl c (.refl s) hb rfl rfl rfl
  · have hb := decimalAdjust_apply adjustDas s
    rw [adjustDas_eq] at hb
    exact Sets.intro_eq rfl c (.refl s) hb rfl rfl rfl

/-- The next free byte. -/
def State.anyByte (x : State) : Byte := (Config.freeValue x.free).setWidth 8

theorem asciiAdjust_apply (step6 step1 : Byte) (ahOpen : Byte → Bool) (s : State) :
    let al : Byte := s.regs.read .w8 .eax
    let ah : Byte := s.regs.read .w8 regAh
    let adjust := lowDigit al s.flags.af
    asciiAdjust step6 step1 ahOpen s =
      .ok () { s with regs := (s.regs.write .w8 .eax ((if adjust then al + step6 else al) &&& 0x0F)).write .w8 regAh
                                (if adjust then (if ahOpen al then s.anyByte else ah + step1) else ah),
                      flags := { s.flags.freeStatus ((Config.freeValue (s.free + 1)).setWidth 6) with
                                 cf := adjust, af := adjust }, free := s.free + 2 } := by
  intro al ah adjust
  rw [asciiAdjust, M.get_bind_apply, draw_bind_apply, M.bind_ok (setReg_apply _ _ _ _),
    M.bind_ok (setReg_apply _ _ _ _), draw_bind_apply]
  rfl

/-- Settles O9. -/
theorem asciiAdjustGivesAx : Obligations.AsciiAdjustGivesAx := by
  intro s c al ah adjust
  let any : BitVec 6 := (Config.freeValue (s.free + 1)).setWidth 6
  refine ⟨⟨any, if adjust then (if decide (0xFA ≤ al.toNat) then s.anyByte else ah + 1) else ah, ?_, ?_, ?_⟩,
    ⟨any, if adjust then (if decide (al.toNat < 6) then s.anyByte else ah - 1) else ah, ?_, ?_, ?_⟩⟩
  · intro h
    simp [h]
  · intro h hlt
    simp [h, hlt]
  · exact Sets.intro_eq rfl c (.refl s) (asciiAdjust_apply 6 1 (fun al => decide (0xFA ≤ al.toNat)) s) rfl rfl rfl
  · intro h
    simp [h]
  · intro h hle
    simp [h, hle]
  · have neg6 : al + -6 = al - 6 := by bv_omega
    have neg1 : ah + -1 = ah - 1 := by bv_omega
    rw [← neg6, ← neg1]
    exact Sets.intro_eq rfl c (.refl s) (asciiAdjust_apply (-6) (-1) (fun al => decide (al.toNat < 6)) s) rfl rfl rfl

theorem asciiMultiply_apply {base : Byte} (hb : base ≠ 0) (s : State) :
    let al : Byte := s.regs.read .w8 .eax
    asciiMultiply base s =
      .ok () { s with regs := (s.regs.write .w8 regAh (BitVec.udiv al base)).write .w8 .eax (BitVec.umod al base),
                      flags := (s.flags.freeStatus ((Config.freeValue s.free).setWidth 6)).szp (BitVec.umod al base),
                      free := s.free + 1 } := by
  intro al
  rw [asciiMultiply, decide_eq_true hb, require_true, M.pure_bind_apply]
  rfl

theorem asciiDivide_apply (base : Byte) (s : State) :
    let al : Byte := s.regs.read .w8 .eax
    let ah : Byte := s.regs.read .w8 regAh
    asciiDivide base s =
      .ok () { s with regs := (s.regs.write .w8 .eax (al + ah * base)).write .w8 regAh 0,
                      flags := (s.flags.freeStatus ((Config.freeValue s.free).setWidth 6)).szp (al + ah * base),
                      free := s.free + 1 } := rfl

/-- Settles O10. -/
theorem asciiMultiplyDivideGivesAx : Obligations.AsciiMultiplyDivideGivesAx := by
  intro s base c al ah
  refine ⟨fun hb => ⟨(Config.freeValue s.free).setWidth 6, ?_⟩, runSimple_exn rfl,
    ⟨_, Sets.intro_eq rfl c (.refl s) (asciiDivide_apply base s) rfl rfl rfl⟩⟩
  have hq : BitVec.ofNat 8 (al.toNat / base.toNat) = BitVec.udiv al base := by
    apply BitVec.eq_of_toNat_eq
    rw [BitVec.toNat_ofNat, Nat.mod_eq_of_lt (Nat.lt_of_le_of_lt (Nat.div_le_self _ _) al.isLt)]
    rfl
  have hr : BitVec.ofNat 8 (al.toNat % base.toNat) = BitVec.umod al base := by
    apply BitVec.eq_of_toNat_eq
    rw [BitVec.toNat_ofNat, Nat.mod_eq_of_lt (Nat.lt_of_le_of_lt (Nat.mod_le _ _) al.isLt)]
    rfl
  rw [hq, hr]
  exact Sets.intro_eq rfl c (.refl s) (asciiMultiply_apply hb s) rfl rfl rfl

end Sys2Proof.Machine

/-! Shifts and rotates: what each bit of a result is, and obligations O11 and O12. -/

namespace Sys2Proof.Machine

/-! Bits of rotated words. -/

theorem getLsbD_rotateLeft_eq {m : Nat} (x : BitVec m) (c : Nat) {i : Nat} (hi : i < m) :
    (x.rotateLeft c).getLsbD i = x.getLsbD ((i + m - c % m) % m) := by
  have hc : c % m < m := Nat.mod_lt _ (by omega)
  rw [BitVec.getLsbD_rotateLeft]
  generalize c % m = d at hc ⊢
  by_cases h : i < d
  · rw [decide_eq_true h, cond_true, Nat.mod_eq_of_lt (by omega)]
    congr 1
    omega
  · rw [decide_eq_false h, cond_false, decide_eq_true hi, Bool.true_and,
      show i + m - d = i - d + m by omega, Nat.add_mod_right, Nat.mod_eq_of_lt (by omega)]

theorem getLsbD_rotateRight_eq {m : Nat} (x : BitVec m) (c : Nat) {i : Nat} (hi : i < m) :
    (x.rotateRight c).getLsbD i = x.getLsbD ((i + c) % m) := by
  have hc : c % m < m := Nat.mod_lt _ (by omega)
  rw [BitVec.getLsbD_rotateRight, Nat.add_mod, Nat.mod_eq_of_lt hi]
  generalize c % m = d at hc ⊢
  by_cases h : i < m - d
  · rw [decide_eq_true h, cond_true, Nat.mod_eq_of_lt (by omega), Nat.add_comm]
  · rw [decide_eq_false h, cond_false, decide_eq_true hi, Bool.true_and]
    congr 1
    have e : i + d = i - (m - d) + m := by omega
    rw [e, Nat.add_mod_right, Nat.mod_eq_of_lt (by omega)]

theorem getLsbD_cons_eq {n : Nat} (cf : Bool) (a : BitVec n) (j : Nat) :
    (BitVec.cons cf a).getLsbD j = if j = n then cf else a.getLsbD j := by
  rw [BitVec.getLsbD_cons]

/-! The rules of the shifts, as the model computes them. -/

/-- The operation that computes a shift or rotate. -/
def ShiftOp.shift : ShiftOp → Shift
  | .rol => shiftRol
  | .ror => shiftRor
  | .rcl => shiftRcl
  | .rcr => shiftRcr
  | .shl => shiftShl
  | .shr => shiftShr
  | .sar => shiftSar

/-- What it does with its flags. -/
def ShiftOp.ends (op : ShiftOp) : ShiftEnd := if op.rotates then finishRotate else finishShift

/-- Result, carry and the OF of a count of 1 are those of the bit by bit rule. -/
structure Shifted.Follows {n : Nat} (r : Shifted n) (op : ShiftOp) (cf : Bool) (a : BitVec n) (c : Nat) : Prop where
  bits : ∀ k < n, r.value.getLsbD k = op.bit cf a c k
  carry : r.cf = op.bit cf a c n
  sign : c = 1 → r.of1 = (r.value.msb != a.msb)

theorem shiftRol_follows {n : Nat} (hn : 1 < n) (cf : Bool) (a : BitVec n) (c : Nat) :
    (shiftRol cf a c).Follows .rol cf a c where
  bits k hk := getLsbD_rotateLeft_eq a c hk
  carry := by
    have hc : c % n < n := Nat.mod_lt _ (by omega)
    refine (getLsbD_rotateLeft_eq a c (by omega)).trans ?_
    simp only [ShiftOp.bit, show n + n - c % n = 0 + n - c % n + n by omega, Nat.add_mod_right]
  sign := by
    rintro rfl
    have h0 : (a.rotateLeft 1).getLsbD 0 = a.msb := by
      rw [getLsbD_rotateLeft_eq a 1 (by omega), Nat.mod_eq_of_lt hn, Nat.mod_eq_of_lt (by omega),
        BitVec.msb_eq_getLsbD_last]
      congr 1
      omega
    simp [shiftRol, h0]

theorem shiftRor_follows {n : Nat} (hn : 1 < n) (cf : Bool) (a : BitVec n) (c : Nat) :
    (shiftRor cf a c).Follows .ror cf a c where
  bits k hk := by
    simp only [shiftRor, ShiftOp.bit, if_neg (Nat.ne_of_lt hk)]
    exact getLsbD_rotateRight_eq a c hk
  carry := by
    simp only [shiftRor, ShiftOp.bit, if_true, BitVec.msb_eq_getLsbD_last]
    exact getLsbD_rotateRight_eq a c (by omega)
  sign := by
    rintro rfl
    have h2 : (a.rotateRight 1).getLsbD (n - 2) = a.msb := by
      rw [getLsbD_rotateRight_eq a 1 (by omega), Nat.mod_eq_of_lt (by omega), BitVec.msb_eq_getLsbD_last]
      congr 1
      omega
    simp [shiftRor, h2]

theorem shiftRcl_follows {n : Nat} (hn : 1 < n) (cf : Bool) (a : BitVec n) (c : Nat) :
    (shiftRcl cf a c).Follows .rcl cf a c where
  bits k hk := by
    simp only [shiftRcl, ShiftOp.bit, BitVec.getLsbD_setWidth, decide_eq_true hk, Bool.true_and,
      getLsbD_rotateLeft_eq _ c (Nat.lt_succ_of_lt hk), getLsbD_cons_eq]
  carry := by
    simp only [shiftRcl, ShiftOp.bit, BitVec.msb_eq_getLsbD_last, Nat.add_sub_cancel,
      getLsbD_rotateLeft_eq _ c (Nat.lt_succ_self n), getLsbD_cons_eq]
  sign := by
    rintro rfl
    have h : ((BitVec.cons cf a).rotateLeft 1).msb = a.msb := by
      rw [BitVec.msb_eq_getLsbD_last, Nat.add_sub_cancel, getLsbD_rotateLeft_eq _ 1 (Nat.lt_succ_self n),
        getLsbD_cons_eq, Nat.mod_eq_of_lt (show 1 < n + 1 by omega), show n + (n + 1) - 1 = n - 1 + (n + 1) by omega,
        Nat.add_mod_right, Nat.mod_eq_of_lt (show n - 1 < n + 1 by omega), if_neg (by omega),
        BitVec.msb_eq_getLsbD_last]
    simp [shiftRcl, h]

theorem shiftRcr_follows {n : Nat} (hn : 1 < n) (cf : Bool) (a : BitVec n) (c : Nat) :
    (shiftRcr cf a c).Follows .rcr cf a c where
  bits k hk := by
    simp only [shiftRcr, ShiftOp.bit, BitVec.getLsbD_setWidth, decide_eq_true hk, Bool.true_and,
      getLsbD_rotateRight_eq _ c (Nat.lt_succ_of_lt hk), getLsbD_cons_eq]
  carry := by
    simp only [shiftRcr, ShiftOp.bit, BitVec.msb_eq_getLsbD_last, Nat.add_sub_cancel,
      getLsbD_rotateRight_eq _ c (Nat.lt_succ_self n), getLsbD_cons_eq]
  sign := by
    rintro rfl
    have h : (((BitVec.cons cf a).rotateRight 1).setWidth n).getLsbD (n - 2) = a.msb := by
      rw [BitVec.getLsbD_setWidth, decide_eq_true (by omega), Bool.true_and, getLsbD_rotateRight_eq _ 1 (by omega),
        getLsbD_cons_eq, Nat.mod_eq_of_lt (by omega), if_neg (by omega), BitVec.msb_eq_getLsbD_last]
      congr 1
      omega
    simp [shiftRcr, h]

theorem shiftShl_follows {n : Nat} (hn : 1 < n) (cf : Bool) (a : BitVec n) (c : Nat) :
    (shiftShl cf a c).Follows .shl cf a c where
  bits k hk := by
    simp only [shiftShl, ShiftOp.bit, BitVec.getLsbD_shiftLeft, decide_eq_true hk, Bool.true_and, ← decide_not, not_lt]
  carry := rfl
  sign := by
    rintro rfl
    have h : (decide (1 ≤ n) && a.getLsbD (n - 1)) = a.msb := by
      rw [decide_eq_true (by omega), Bool.true_and, BitVec.msb_eq_getLsbD_last]
    simp [shiftShl, h]

theorem shiftShr_follows {n : Nat} (hn : 1 < n) (cf : Bool) (a : BitVec n) {c : Nat} (hc : c ≠ 0) :
    (shiftShr cf a c).Follows .shr cf a c where
  bits k hk := by
    simp only [shiftShr, ShiftOp.bit, if_neg (Nat.ne_of_lt hk), BitVec.getLsbD_ushiftRight, Nat.add_comm]
  carry := by
    simp only [shiftShr, ShiftOp.bit, if_true]
    by_cases h : c ≤ n
    · rw [decide_eq_true h, Bool.true_and]
    · rw [decide_eq_false h, Bool.false_and, BitVec.getLsbD_of_ge _ _ (by omega)]
  sign := by
    rintro rfl
    have h : (a >>> 1).msb = false := by
      rw [BitVec.msb_eq_getLsbD_last, BitVec.getLsbD_ushiftRight, BitVec.getLsbD_of_ge _ _ (by omega)]
    simp [shiftShr, h]

theorem shiftSar_follows {n : Nat} (hn : 1 < n) (cf : Bool) (a : BitVec n) (c : Nat) :
    (shiftSar cf a c).Follows .sar cf a c where
  bits k hk := by
    simp only [shiftSar, ShiftOp.bit, if_neg (Nat.ne_of_lt hk), BitVec.getLsbD_sshiftRight,
      decide_eq_false (not_le.2 hk), Bool.not_false, Bool.true_and, Nat.add_comm]
  carry := by simp only [shiftSar, ShiftOp.bit, if_true]
  sign := by
    rintro rfl
    have h : (a.sshiftRight 1).msb = a.msb := by
      rw [BitVec.msb_eq_getLsbD_last, BitVec.getLsbD_sshiftRight, decide_eq_false (by omega), if_neg (by omega)]
      rfl
    simp [shiftSar, h]

theorem ShiftOp.shift_follows (op : ShiftOp) {n : Nat} (hn : 1 < n) (cf : Bool) (a : BitVec n) {c : Nat} (hc : c ≠ 0) :
    (op.shift cf a c).Follows op cf a c := by
  cases op with
  | rol => exact shiftRol_follows hn cf a c
  | ror => exact shiftRor_follows hn cf a c
  | rcl => exact shiftRcl_follows hn cf a c
  | rcr => exact shiftRcr_follows hn cf a c
  | shl => exact shiftShl_follows hn cf a c
  | shr => exact shiftShr_follows hn cf a hc
  | sar => exact shiftSar_follows hn cf a c

/-! The flags. -/

/-- The OF of a shift by `c`: any value but for a count of 1. -/
theorem shiftOf_ok (c : Nat) (of1 : Bool) (x : State) :
    ∃ b n, shiftOf c of1 x = .ok b { x with free := n } ∧ (c = 1 → b = of1) := by
  by_cases h : c = 1
  · exact ⟨of1, x.free, by rw [shiftOf, if_pos h]; rfl, fun _ => rfl⟩
  · exact ⟨x.anyBool, x.free + 1, by rw [shiftOf, if_neg h]; rfl, fun h' => absurd h' h⟩

theorem finishShift_ok {n : Nat} (c : Nat) (r : Shifted n) (x : State) :
    ∃ of_ af k, finishShift c r x = .ok r.value
        { x with flags := { x.flags.szp r.value with cf := r.cf, of := of_, af := af }, free := k } ∧
      (c = 1 → of_ = r.of1) := by
  obtain ⟨b, k, h, hb⟩ := shiftOf_ok c r.of1 x
  refine ⟨b, ({ x with free := k } : State).anyBool, k + 1, ?_, hb⟩
  rw [finishShift, M.bind_ok h]
  rfl

theorem finishRotate_ok {n : Nat} (c : Nat) (r : Shifted n) (x : State) :
    ∃ of_ k, finishRotate c r x = .ok r.value
        { x with flags := { x.flags with cf := r.cf, of := of_ }, free := k } ∧ (c = 1 → of_ = r.of1) := by
  obtain ⟨b, k, h, hb⟩ := shiftOf_ok c r.of1 x
  refine ⟨b, k, ?_, hb⟩
  rw [finishRotate, M.bind_ok h]
  rfl

theorem ShiftOp.ends_ok (op : ShiftOp) {n : Nat} (c : Nat) (r : Shifted n) (x : State) :
    ∃ of_ af k, op.ends c r x = .ok r.value
        { x with flags := if op.rotates then { x.flags with cf := r.cf, of := of_ }
                          else { x.flags.szp r.value with cf := r.cf, of := of_, af := af }, free := k } ∧
      (c = 1 → of_ = r.of1) := by
  rw [ends]
  split
  · obtain ⟨of_, k, h, hb⟩ := finishRotate_ok c r x
    exact ⟨of_, false, k, h, hb⟩
  · exact finishShift_ok c r x

/-! The encodings. -/

theorem shiftCount_eq (count : Byte) : shiftCount count = count.toNat % 32 := by
  rw [shiftCount, BitVec.toNat_and]
  exact Nat.and_two_pow_sub_one_eq_mod _ 5

theorem shiftForm_runs {s : State} {op : ShiftOp} {i : Instr} {w : Width} {rm : Rm} {count : Byte}
    (h : ShiftForm s op i w rm count) : exec i s = runSimple (shiftRm w op.shift op.ends rm count) s := by
  cases h
  case rm8Imm8 => cases op <;> rfl
  case rmvImm8 => cases op <;> rfl
  case rm8One => cases op <;> rfl
  case rmvOne => cases op <;> rfl
  case rm8Cl =>
    refine Eq.trans ?_ (runSimple_congr (x := shiftRmCl .w8 op.shift op.ends rm) rfl)
    cases op <;> rfl
  case rmvCl =>
    refine Eq.trans ?_ (runSimple_congr (x := shiftRmCl s.vWidth op.shift op.ends rm) rfl)
    cases op <;> rfl

theorem one_lt_bits (w : Width) : 1 < w.bits := by cases w <;> decide

/-- Settles O11: the operand is located for writing and read; with a count of 0 that is all, else the result of the
operation is written with its flags. -/
theorem shiftRotateResult : Obligations.ShiftRotateResult := by
  intro s u op i w rm count p c hi hl n a
  have h := Touched.of_locate hl
  have hu := h.stays c
  have read : shiftRm w op.shift op.ends rm count s = (if shiftCount count = 0 then pure () else do
      let v ← op.ends (shiftCount count) (op.shift u.flags.cf a (shiftCount count))
      putPlace w p v : M Unit) u := by
    rw [shiftRm, M.bind_ok hl, M.bind_ok (getPlace_closed hu w p), M.get_bind_apply]
  rw [shiftCount_eq] at read
  refine ⟨fun h0 => ?_, fun h0 => ?_⟩
  · rw [if_pos h0] at read
    exact Sets.intro_eq (shiftForm_runs hi) c h read h.regs h.flags rfl
  · obtain ⟨of_, af, k, hends, hof⟩ := op.ends_ok n (op.shift u.flags.cf a n) u
    have follows := op.shift_follows (one_lt_bits w) u.flags.cf a h0
    rw [if_neg h0, M.bind_ok hends, putPlace_closed (by exact hu)] at read
    have hw := Writes.intro_eq (shiftForm_runs hi) c hl read rfl rfl
    rw [← h.flags]
    refine ⟨_, of_, af, follows.bits, fun h1 => (hof h1).trans (follows.sign h1), ?_⟩
    rw [← follows.carry]
    exact hw

/-! SHLD and SHRD. -/

/-- The operation that computes SHLD or SHRD. -/
def doubleShifted (left : Bool) {n : Nat} (a b : BitVec n) (c : Nat) : Shifted n :=
  if left then doubleLeft a b c else doubleRight a b c

theorem doubleShifted_bits (left : Bool) {n : Nat} (a b : BitVec n) {c : Nat} (hc : c ≤ n) {k : Nat} (hk : k < n) :
    (doubleShifted left a b c).value.getLsbD k = doubleBit left a b c k := by
  cases left with
  | true =>
    simp only [doubleShifted, doubleLeft, doubleBit, if_true, BitVec.getLsbD_or, BitVec.getLsbD_shiftLeft,
      BitVec.getLsbD_ushiftRight, decide_eq_true hk, Bool.true_and]
    by_cases h : c ≤ k
    · rw [if_pos h, decide_eq_false (not_lt.2 h), BitVec.getLsbD_of_ge b _ (by omega)]
      simp
    · rw [if_neg h, decide_eq_true (not_le.1 h), show n - c + k = k + n - c by omega]
      simp
  | false =>
    simp only [doubleShifted, doubleRight, doubleBit, Bool.false_eq_true, if_false, BitVec.getLsbD_or,
      BitVec.getLsbD_shiftLeft, BitVec.getLsbD_ushiftRight, decide_eq_true hk, Bool.true_and]
    by_cases h : k + c < n
    · rw [if_pos h, decide_eq_true (by omega), Nat.add_comm c k]
      simp
    · rw [if_neg h, decide_eq_false (by omega), BitVec.getLsbD_of_ge a _ (by omega),
        show k - (n - c) = k + c - n by omega]
      simp

theorem doubleShifted_carry (left : Bool) {n : Nat} (a b : BitVec n) (c : Nat) :
    (doubleShifted left a b c).cf = if left then a.getLsbD (n - c) else a.getLsbD (c - 1) := by
  cases left <;> rfl

theorem doubleShifted_sign (left : Bool) {n : Nat} (a b : BitVec n) (c : Nat) :
    (doubleShifted left a b c).of1 = ((doubleShifted left a b c).value.msb != a.msb) := by
  cases left <;> rfl

theorem doubleForm_runs {s : State} {left : Bool} {i : Instr} {rm : Rm} {q : Reg} {count : Byte}
    (h : DoubleForm s left i rm q count) :
    exec i s = runSimple (doubleShift s.vWidth (doubleShifted left) rm q count) s := by
  cases h
  case shldImm8 => rfl
  case shldCl => exact runSimple_congr (x := doubleShiftCl s.vWidth doubleLeft rm q) rfl
  case shrdImm8 => rfl
  case shrdCl => exact runSimple_congr (x := doubleShiftCl s.vWidth doubleRight rm q) rfl

/-- Settles O12. -/
theorem doubleShiftResult : Obligations.DoubleShiftResult := by
  intro s u left i rm q count p c hi hl n a b
  have h := Touched.of_locate hl
  have hu := h.stays c
  have read : doubleShift s.vWidth (doubleShifted left) rm q count s =
      (if shiftCount count = 0 then pure () else if s.vWidth.bits < shiftCount count then do
        let v ← draw s.vWidth.bits
        freeStatus
        putPlace s.vWidth p v
      else do
        let v ← finishShift (shiftCount count) (doubleShifted left a b (shiftCount count))
        putPlace s.vWidth p v : M Unit) u := by
    have hb : u.regs.read s.vWidth q = b := by rw [h.regs]
    rw [doubleShift, M.bind_ok hl, M.bind_ok (getPlace_closed hu _ p), M.bind_ok (getReg_apply _ _ _), hb]
  rw [shiftCount_eq] at read
  rw [← h.flags]
  refine ⟨fun h0 => ?_, fun hlt => ?_, fun h0 hle => ?_⟩
  · rw [if_pos h0] at read
    exact Sets.intro_eq (doubleForm_runs hi) c h read h.regs rfl rfl
  · rw [if_neg (by omega), if_pos hlt, draw_bind_apply, M.bind_ok (freeStatus_apply _),
      putPlace_closed (by exact hu)] at read
    exact ⟨_, _, Writes.intro_eq (doubleForm_runs hi) c hl read rfl rfl⟩
  · obtain ⟨of_, af, k, hends, hof⟩ := finishShift_ok n (doubleShifted left a b n) u
    rw [if_neg h0, if_neg (not_lt.2 hle), M.bind_ok hends, putPlace_closed (by exact hu)] at read
    have hw := Writes.intro_eq (doubleForm_runs hi) c hl read rfl rfl
    rw [doubleShifted_carry] at hw
    exact ⟨_, of_, af, fun k hk => doubleShifted_bits left a b hle hk,
      fun h1 => (hof h1).trans (doubleShifted_sign left a b n), hw⟩

end Sys2Proof.Machine

/-! Bit tests and bit scans: obligations O13 to O15. -/

namespace Sys2Proof.Machine

/-! Places reached by an instruction. -/

/-- A place whose accesses led from `s` to `u`: its bytes are distinct, and as many as the operand has. -/
structure Reached (s u : State) (w : Width) (p : Place) : Prop where
  touched : Touched s u
  nodup : p.bytes.Nodup
  length : ∀ ps, p = .mem ps → ps.length = w.bytes

theorem Reached.of_locate {w : Width} {rm : Rm} {write : Bool} {s u : State} {p : Place}
    (hl : locate w rm write s = .ok p u) : Reached s u w p :=
  ⟨Touched.of_locate hl, (locate_bytes hl).1, (locate_bytes hl).2⟩

theorem Reached.of_segLocate {w : Width} {sr : Sreg} {off : Dword} {write : Bool} {s u : State} {ps : List Dword}
    (h : segLocate sr off w.bytes write s = .ok ps u) : Reached s u w (.mem ps) :=
  have hb := segLocate_bytes (bytes_le w) h
  ⟨(Touches.segLocate sr off w.bytes write s).1 _ _ h, hb.2, fun _ e => by cases e; exact hb.1⟩

theorem Reached.of_bitPlace {w : Width} {write : Bool} {o : BitVec w.bits} {rm : Rm} {p : Place} {s u : State}
    (h : BitPlace s w write o rm p u) : Reached s u w p := by
  cases h with
  | reg r => exact ⟨.refl s, List.nodup_nil, fun _ e => by cases e⟩
  | mem ea ps _ h => exact .of_segLocate h

/-- `Writes` for a place reached by other ways than `locate`. -/
theorem Writes.of_reached {s u x : State} {i : Instr} {body : M Unit} {w : Width} {p : Place} {v : BitVec w.bits}
    {f : Flags} (he : exec i s = runSimple body s) (c : s.closed = true) (h : Reached s u w p)
    (hb : body s = .ok () (x.withPlace w p v)) (hf : x.flags = f)
    (hx : x = { u with flags := x.flags, free := x.free, dec := { u.dec with held := x.dec.held } }) :
    Writes s i w p v f := by
  have hr : s.regs = x.regs := by rw [hx]; exact h.touched.regs.symm
  rw [Writes, hr, ← hf]
  exact WritesOver.intro he c h.touched h.nodup h.length (by rw [hx]) hb

/-! Bits changed by a mask. -/

/-- What BTS, BTR and BTC do to the operand, given the mask of the bit. -/
def BitOp.change (op : BitOp) {n : Nat} (a m : BitVec n) : BitVec n :=
  match op with
  | .bt => a
  | .bts => setBits a m
  | .btr => resetBits a m
  | .btc => flipBits a m

theorem BitOp.change_bit (op : BitOp) {n : Nat} (a : BitVec n) {j k : Nat} (hk : k < n) (hj : j < n) :
    (op.change a (BitVec.twoPow n k)).getLsbD j = if j = k then op.new (a.getLsbD k) else a.getLsbD j := by
  by_cases h : j = k
  · subst h
    cases op <;> simp [change, new, setBits, resetBits, flipBits, BitVec.getLsbD_twoPow, hj]
  · cases op <;> simp [change, setBits, resetBits, flipBits, BitVec.getLsbD_twoPow, hj, h, Ne.symm h]

theorem bitFlags_apply (cf : Bool) (x : State) :
    bitFlags cf x = .ok () { x with
      flags := { x.flags.freeStatus ((Config.freeValue x.free).setWidth 6) with cf := cf }
      free := x.free + 1 } := rfl

/-- BT reads its unit and writes the flags. -/
theorem testBit_ok {u : State} (c : u.closed = true) (w : Width) (p : Place) (k : Nat) :
    testBit w p k u = .ok ()
      { u with flags := { u.flags.freeStatus ((Config.freeValue u.free).setWidth 6) with
                          cf := (u.placeValue w p).getLsbD k }, free := u.free + 1 } := by
  rw [testBit, M.bind_ok (getPlace_closed c w p), bitFlags_apply]

/-- BTS, BTR and BTC also write the unit. -/
theorem changeBit_ok {u : State} (c : u.closed = true) (w : Width) (f : {n : Nat} → BitVec n → BitVec n → BitVec n)
    (p : Place) (k : Nat) :
    changeBit w f p k u = .ok () (({ u.holding with
        flags := { u.flags.freeStatus ((Config.freeValue u.free).setWidth 6) with cf := (u.placeValue w p).getLsbD k },
        free := u.free + 1 } : State).withPlace w p (f (u.placeValue w p) (BitVec.twoPow w.bits k))) := by
  rw [changeBit, M.get_bind_apply, M.bind_ok (getPlaceToWrite_closed c w _ p), M.bind_ok (bitFlags_apply _ _),
    putPlace_closed (by exact c)]
  rfl

/-- BT and its kin at a unit already located. -/
def BitOp.at (op : BitOp) (w : Width) (p : Place) (k : Nat) : M Unit :=
  if op.writes then changeBit w op.change p k else testBit w p k

/-- What BT and its kin leave at a unit reached with `u`. -/
theorem BitOp.at_result {s u : State} {op : BitOp} {i : Instr} {body : M Unit} {w : Width} {p : Place} {k : Nat}
    (c : s.closed = true) (h : Reached s u w p) (hk : k < w.bits) (he : exec i s = runSimple body s)
    (hb : body s = op.at w p k u) :
    ∃ any, (op = .bt → Sets s i s.regs { s.flags.freeStatus any with cf := (u.placeValue w p).getLsbD k }) ∧
      (op ≠ .bt → ∃ r : BitVec w.bits, (∀ j < w.bits, r.getLsbD j =
          if j = k then op.new ((u.placeValue w p).getLsbD k) else (u.placeValue w p).getLsbD j) ∧
        Writes s i w p r { s.flags.freeStatus any with cf := (u.placeValue w p).getLsbD k }) := by
  have hu := h.touched.stays c
  refine ⟨(Config.freeValue u.free).setWidth 6, fun hbt => ?_, fun hne => ?_⟩
  · subst hbt
    rw [BitOp.at, if_neg (by decide), testBit_ok hu, h.touched.flags] at hb
    exact Sets.intro_eq he c h.touched hb h.touched.regs rfl rfl
  · have hw : op.writes = true := by
      cases op with
      | bt => exact absurd rfl hne
      | bts | btr | btc => rfl
    rw [BitOp.at, if_pos hw, changeBit_ok hu, h.touched.flags] at hb
    exact ⟨_, fun j hj => op.change_bit _ hk hj, Writes.of_reached he c h hb rfl rfl⟩

/-! Immediate offsets. -/

/-- BT and its kin with an immediate offset. -/
theorem bitImmForm_runs {s u : State} {op : BitOp} {i : Instr} {rm : Rm} {imm : Byte} {p : Place}
    (h : BitImmForm op i rm imm) (hl : locate s.vWidth rm op.writes s = .ok p u) :
    ∃ body, exec i s = runSimple body s ∧ body s = op.at s.vWidth p (imm.toNat % s.vWidth.bits) u := by
  cases h
  case bt => exact ⟨testBitImm s.vWidth rm imm, rfl, M.bind_ok hl _⟩
  case bts => exact ⟨changeBitImm s.vWidth setBits rm imm, rfl, M.bind_ok hl _⟩
  case btr => exact ⟨changeBitImm s.vWidth resetBits rm imm, rfl, M.bind_ok hl _⟩
  case btc => exact ⟨changeBitImm s.vWidth flipBits rm imm, rfl, M.bind_ok hl _⟩

/-- Settles O13. -/
theorem bitImmediateResult : Obligations.BitImmediateResult := by
  intro s u op i rm imm p c hi hl a k
  obtain ⟨body, he, hb⟩ := bitImmForm_runs hi hl
  exact BitOp.at_result c (.of_locate hl) (Nat.mod_lt _ (bits_pos _)) he hb

/-! Register offsets. -/

/-- The index in the unit, of the signed offset and of its word. -/
theorem bitIndex_eq (w : Width) (o : BitVec w.bits) : bitIndex w o = (o.toInt % w.bits).toNat := by
  have hdvd : (w.bits : Int) ∣ (2 ^ w.bits : Nat) := by cases w <;> decide
  rw [bitIndex, BitVec.toInt_eq_toNat_bmod, ← Int.emod_emod_of_dvd _ hdvd, Int.bmod_emod, Int.emod_emod_of_dvd _ hdvd]
  omega

theorem locateBit_ok {s u : State} {w : Width} {write : Bool} {o : BitVec w.bits} {rm : Rm} {p : Place}
    (h : BitPlace s w write o rm p u) : locateBit w rm o write s = .ok p u := by
  cases h with
  | reg r => rfl
  | mem ea ps _ h =>
    rw [locateBit, M.get_bind_apply, M.map_apply, h]

/-- BT and its kin with a register offset. -/
theorem bitRegForm_runs {s u : State} {op : BitOp} {i : Instr} {rm : Rm} {q : Reg} {p : Place}
    (h : BitRegForm op i rm q) (hl : BitPlace s s.vWidth op.writes (s.regs.read s.vWidth q) rm p u) :
    ∃ body, exec i s = runSimple body s ∧ body s = op.at s.vWidth p (bitIndex s.vWidth (s.regs.read s.vWidth q)) u := by
  have hl' := locateBit_ok hl
  cases h
  case bt => exact ⟨testBitReg s.vWidth rm q, rfl, M.bind_ok hl' _⟩
  case bts => exact ⟨changeBitReg s.vWidth setBits rm q, rfl, M.bind_ok hl' _⟩
  case btr => exact ⟨changeBitReg s.vWidth resetBits rm q, rfl, M.bind_ok hl' _⟩
  case btc => exact ⟨changeBitReg s.vWidth flipBits rm q, rfl, M.bind_ok hl' _⟩

/-- Settles O14. -/
theorem bitRegisterResult : Obligations.BitRegisterResult := by
  intro s u op i rm q p c hi hl a k
  obtain ⟨body, he, hb⟩ := bitRegForm_runs hi hl
  have hk : k = bitIndex s.vWidth (s.regs.read s.vWidth q) := (bitIndex_eq _ _).symm
  rw [hk]
  exact BitOp.at_result c (.of_bitPlace hl) (Nat.mod_lt _ (bits_pos _)) he hb

/-! Scans. -/

theorem lowestBit_eq {n k : Nat} {a : BitVec n} (hk : k < n) (hb : a.getLsbD k = true)
    (hlow : ∀ j < k, a.getLsbD j = false) : lowestBit a = k := by
  have : (List.range n).find? (fun i => a.getLsbD i) = some k :=
    List.find?_range_eq_some.2 ⟨hb, List.mem_range.2 hk, fun j hj => by rw [hlow j hj]; rfl⟩
  rw [lowestBit, this]
  rfl

theorem highestBit_eq {n k : Nat} {a : BitVec n} (hk : k < n) (hb : a.getLsbD k = true)
    (hhigh : ∀ j, k < j → a.getLsbD j = false) : highestBit a = k := by
  have find : ∀ m, k < m → (List.range m).reverse.find? (fun i => a.getLsbD i) = some k := by
    intro m hm
    induction m with
    | zero => omega
    | succ m ih =>
      rw [List.range_succ, List.reverse_append, List.reverse_singleton, List.singleton_append]
      rcases Nat.lt_succ_iff_lt_or_eq.1 hm with h | rfl
      · rw [List.find?_cons_of_neg (by simp [hhigh m h]), ih h]
      · rw [List.find?_cons_of_pos (by exact hb)]
  rw [highestBit, find n hk]
  rfl

theorem scanBits_ok {s u : State} {w : Width} {rm : Rm} {p : Place} (c : s.closed = true)
    (hl : locate w rm false s = .ok p u) (f : {n : Nat} → BitVec n → Nat) (r : Reg) :
    let a := u.placeValue w p
    ∃ any x, scanBits w f r rm s = .ok ()
      { u with regs := u.regs.write w r (if a = 0 then x else BitVec.ofNat w.bits (f a)),
               flags := { u.flags.freeStatus any with zf := decide (a = 0) }, free := u.free + 2 } := by
  refine ⟨(Config.freeValue u.free).setWidth 6, (Config.freeValue (u.free + 1)).setWidth w.bits, ?_⟩
  rw [scanBits, M.bind_ok (readRm_ok c hl)]
  rfl

/-- BSF and BSR of an operand that has a 1 bit. -/
theorem scan_sets {s u : State} {i : Instr} {q : Reg} {rm : Rm} {p : Place} {f : {n : Nat} → BitVec n → Nat} {k : Nat}
    (c : s.closed = true) (hl : locate s.vWidth rm false s = .ok p u)
    (he : exec i s = runSimple (scanBits s.vWidth f q rm) s) (hk : (u.placeValue s.vWidth p).getLsbD k = true)
    (hf : f (u.placeValue s.vWidth p) = k) :
    ∃ any, Sets s i (s.regs.write s.vWidth q (BitVec.ofNat _ k)) { s.flags.freeStatus any with zf := false } := by
  have h := Touched.of_locate hl
  have hne : u.placeValue s.vWidth p ≠ 0 := fun h0 => by simp [h0] at hk
  obtain ⟨any, x, hb⟩ := scanBits_ok c hl f q
  rw [if_neg hne, decide_eq_false hne, hf, h.regs, h.flags] at hb
  exact ⟨any, Sets.intro_eq he c h hb rfl rfl rfl⟩

/-- And of one that has none. -/
theorem scan_zero {s u : State} {i : Instr} {q : Reg} {rm : Rm} {p : Place} {f : {n : Nat} → BitVec n → Nat}
    (c : s.closed = true) (hl : locate s.vWidth rm false s = .ok p u)
    (he : exec i s = runSimple (scanBits s.vWidth f q rm) s) (h0 : u.placeValue s.vWidth p = 0) :
    ∃ any x, Sets s i (s.regs.write s.vWidth q x) { s.flags.freeStatus any with zf := true } := by
  have h := Touched.of_locate hl
  obtain ⟨any, x, hb⟩ := scanBits_ok c hl f q
  rw [if_pos h0, decide_eq_true h0, h.regs, h.flags] at hb
  exact ⟨any, x, Sets.intro_eq he c h hb rfl rfl rfl⟩

/-- Settles O15. -/
theorem bitScanFindsIndex : Obligations.BitScanFindsIndex := by
  intro s u q rm p c hl a
  refine ⟨fun k hk hb => ⟨fun hlow => ?_, fun hhigh => ?_⟩, fun h0 => ?_⟩
  · exact scan_sets (f := lowestBit) c hl rfl hb (lowestBit_eq hk hb hlow)
  · exact scan_sets (f := highestBit) c hl rfl hb (highestBit_eq hk hb hhigh)
  · obtain ⟨any, x, hf⟩ := scan_zero (i := .bsf q rm) (f := lowestBit) c hl rfl h0
    obtain ⟨any', x', hr⟩ := scan_zero (i := .bsr q rm) (f := highestBit) c hl rfl h0
    exact ⟨any, x, any', x', hf, hr⟩

end Sys2Proof.Machine

/-! Moves: what a store through located bytes leaves, and obligations O16 to O22. -/

namespace Sys2Proof.Machine

/-! MOV to r/m and SETcc. -/

/-- A simple meaning that writes a located r/m operand and nothing else. -/
theorem Writes.of_writeRm {s u : State} {i : Instr} {body : M Unit} {w : Width} {rm : Rm} {p : Place}
    {v : BitVec w.bits} (he : exec i s = runSimple body s) (c : s.closed = true) (hl : locate w rm true s = .ok p u)
    (hb : body s = writeRm w rm v s) : Writes s i w p v s.flags :=
  Writes.intro_eq he c hl (hb.trans (writeRm_ok c hl v)) (Touched.of_locate hl).flags rfl

theorem moveForm_runs {s : State} {i : Instr} {w : Width} {rm : Rm} {v : BitVec w.bits} (h : MoveForm s i w rm v) :
    ∃ body, exec i s = runSimple body s ∧ body s = writeRm w rm v s := by
  cases h
  case rm8R8 r => exact ⟨moveToRm .w8 rm r, rfl, rfl⟩
  case rmvRv r => exact ⟨moveToRm s.vWidth rm r, rfl, rfl⟩
  case rm8Imm8 => exact ⟨_, rfl, rfl⟩
  case rmvImmv imm => exact ⟨writeRm s.vWidth rm (immV s.vWidth imm), rfl, rfl⟩

theorem condSet_runs {s : State} {i : Instr} {rm : Rm} {c : Cond} (h : CondSet rm i c) :
    exec i s = runSimple (setCond c rm) s := by
  cases h <;> rfl

/-- Settles O16. -/
theorem moveToRmStores : Obligations.MoveToRmStores := by
  intro s u w rm p c hl
  refine ⟨fun i v hi => ?_, fun i cc hw hi => ?_⟩
  · obtain ⟨body, he, hb⟩ := moveForm_runs hi
    exact .of_writeRm he c hl hb
  · subst hw
    exact .of_writeRm (condSet_runs hi) c hl rfl

/-! Loads from r/m. -/

theorem loadForm_runs {s u : State} {i : Instr} {w : Width} {rm : Rm} {r : Reg} {d : Width}
    {f : BitVec w.bits → BitVec d.bits} {p : Place} (c : s.closed = true) (hl : locate w rm false s = .ok p u)
    (h : LoadForm s i w rm r d f) :
    ∃ body, exec i s = runSimple body s ∧ body s = .ok () (u.withReg d r (f (u.placeValue w p))) := by
  have read := readRm_ok c hl
  cases h
  case r8Rm8 => exact ⟨moveToReg .w8 r rm, rfl, M.bind_ok read _⟩
  case rvRmv => exact ⟨moveToReg s.vWidth r rm, rfl, M.bind_ok read _⟩
  case zero8 => exact ⟨moveZero r .w8 rm, rfl, M.bind_ok read _⟩
  case zero16 => exact ⟨moveZero r .w16 rm, rfl, M.bind_ok read _⟩
  case sign8 => exact ⟨moveSign r .w8 rm, rfl, M.bind_ok read _⟩
  case sign16 => exact ⟨moveSign r .w16 rm, rfl, M.bind_ok read _⟩

/-- Settles O17. -/
theorem loadFromRmWritesRegister : Obligations.LoadFromRmWritesRegister := by
  intro s u i w rm r d f p c hi hl
  have h := Touched.of_locate hl
  obtain ⟨body, he, hb⟩ := loadForm_runs c hl hi
  exact Sets.intro_eq he c h hb (by rw [← h.regs]; rfl) h.flags rfl

/-! Stores to located bytes. -/

theorem Touched.of_segLocate {sr : Sreg} {off : Dword} {n : Nat} {write : Bool} {s u : State} {ps : List Dword}
    (hl : segLocate sr off n write s = .ok ps u) : Touched s u := (Touches.segLocate sr off n write s).1 _ _ hl

/-- A simple meaning that stores a number in located bytes, and writes registers and flags. -/
theorem Leaves.stored {s u : State} {i : Instr} {body : M Unit} {g : Regs} {f : Flags} {ps : List Dword} {v k : Nat}
    {b : Bool} (he : exec i s = runSimple body s) (c : s.closed = true) (h : Touched s u) (hd : ps.Nodup)
    (hv : v < 256 ^ ps.length)
    (hb : body s = .ok () { u.putBytes ps v with regs := g, flags := f, free := k, dec := { u.dec with held := b } }) :
    Leaves s i s g f.settled s.nextEip ps v := by
  have store := putBytes_stored (h.wf (s.closed_wf c)) hd hv
  have e := u.putBytes_eq ps v
  refine Leaves.simple he hb rfl c h (by rw [e]) store.2 store.1 rfl rfl ?_
  rw [e]
  exact h.nextEip

/-! Direct offsets. -/

theorem readValue_closed {s : State} (c : s.closed = true) (w : Width) (ps : List Dword) :
    readValue w ps s = .ok (BitVec.ofNat w.bits (s.mem.readAt ps)) s := by
  rw [readValue, M.bind_ok (memRead_closed c ps)]
  rfl

theorem locateMoffs_apply (off : Dword) (n : Nat) (write : Bool) (s : State) :
    locateMoffs off n write s = segLocate (s.segFor .ds) (s.asWrap off) n write s := by
  rw [locateMoffs, M.get_bind_apply]

theorem loadMoffs_ok {s u : State} {w : Width} {off : Dword} {ps : List Dword} (c : s.closed = true)
    (hl : segLocate (s.segFor .ds) (s.asWrap off) w.bytes false s = .ok ps u) :
    loadMoffs w off s = .ok () (u.withReg w .eax (BitVec.ofNat w.bits (u.mem.readAt ps))) := by
  have hu := (Touched.of_segLocate hl).stays c
  rw [loadMoffs, M.bind_ok ((locateMoffs_apply _ _ _ _).trans hl), M.bind_ok (readValue_closed hu w ps), setReg_apply]

theorem storeMoffs_ok {s u : State} {w : Width} {off : Dword} {ps : List Dword} (c : s.closed = true)
    (hl : segLocate (s.segFor .ds) (s.asWrap off) w.bytes true s = .ok ps u) :
    storeMoffs w off s = .ok () (u.putBytes ps (s.regs.read w .eax).toNat) := by
  have hu := (Touched.of_segLocate hl).stays c
  rw [storeMoffs, M.bind_ok (getReg_apply _ _ _), M.bind_ok ((locateMoffs_apply _ _ _ _).trans hl),
    memWrite_closed hu]

/-- Settles O18. -/
theorem directOffsetMovesAccumulator : Obligations.DirectOffsetMovesAccumulator := by
  intro s u i store w off ps c
  refine ⟨fun hi hl => ?_, fun hl => ?_⟩
  · have h := Touched.of_segLocate hl
    obtain ⟨hn, hd⟩ := segLocate_bytes (bytes_le w) hl
    have load : ∀ {j : Instr}, exec j s = runSimple (loadMoffs w off) s →
        segLocate (s.segFor .ds) (s.asWrap off) w.bytes false s = .ok ps u →
        Sets s j (s.regs.write w .eax (BitVec.ofNat w.bits (u.mem.readAt ps))) s.flags := fun he hl =>
      Sets.intro_eq he c h (loadMoffs_ok c hl) (by rw [← h.regs]; rfl) h.flags rfl
    have keep : ∀ {j : Instr}, exec j s = runSimple (storeMoffs w off) s →
        segLocate (s.segFor .ds) (s.asWrap off) w.bytes true s = .ok ps u →
        Leaves s j s s.regs s.flags.settled s.nextEip ps (s.regs.read w .eax).toNat := fun he hl => by
      refine Leaves.stored (k := u.free) (b := u.dec.held) he c h hd (hn ▸ toNat_lt_pow w _) ?_
      rw [storeMoffs_ok c hl, u.putBytes_eq, ← h.regs, ← h.flags]
    cases hi
    case al | eax => exact load rfl hl
    case toAl | toEax => exact keep rfl hl
  · have h := Touched.of_segLocate hl
    have hb : translateByte s = .ok () (u.withReg .w8 .eax (BitVec.ofNat 8 (u.mem.readAt ps))) :=
      (M.bind_ok ((M.bind_ok hl _).trans (readValue_closed (h.stays c) .w8 ps)) _).trans rfl
    exact Sets.intro_eq rfl c h hb (by rw [← h.regs]; rfl) h.flags rfl

/-! Registers and flags alone. -/

theorem lowByte_eq (f : Flags) : f.lowByte = BitVec.ofBool f.sf ++ BitVec.ofBool f.zf ++ 0#1 ++ BitVec.ofBool f.af ++
    0#1 ++ BitVec.ofBool f.pf ++ 1#1 ++ BitVec.ofBool f.cf := by
  apply BitVec.eq_of_toNat_eq
  have bit : ∀ b : Bool, (BitVec.ofBool b).toNat < 2 := fun b => (BitVec.ofBool b).isLt
  have := bit f.sf; have := bit f.zf; have := bit f.af; have := bit f.pf; have := bit f.cf
  simp only [Flags.lowByte, Flags.image, BitVec.extractLsb'_toNat, toNat_append_eq, Nat.shiftRight_zero,
    BitVec.ofNat_eq_ofNat, BitVec.toNat_ofNat]
  omega

theorem registerForm_runs {s : State} {i : Instr} {g : Regs} {f : Flags} (h : RegisterForm s i g f) :
    ∃ body, exec i s = runSimple body s ∧ body s = .ok () { s with regs := g, flags := f } := by
  cases h
  case movR8Imm8 r imm => exact ⟨setReg .w8 r imm, rfl, rfl⟩
  case movRvImmv r imm => exact ⟨setReg s.vWidth r (immV s.vWidth imm), rfl, rfl⟩
  case lea r ea => exact ⟨loadAddress s.vWidth r ea, rfl, rfl⟩
  case nop => exact ⟨pure (), rfl, rfl⟩
  case cbw h =>
    refine ⟨convertAcc s.os32, rfl, ?_⟩
    rw [h]
    rfl
  case cwde h =>
    refine ⟨convertAcc s.os32, rfl, ?_⟩
    rw [h]
    rfl
  case cwd =>
    refine ⟨spreadSign s.vWidth, rfl, ?_⟩
    have sign : ((s.regs.read s.vWidth .eax).toInt < 0) = ((s.regs.read s.vWidth .eax).msb = true) := by
      rw [BitVec.msb_eq_toInt, decide_eq_true_eq]
    simp only [sign]
    rfl
  case lahf =>
    refine ⟨loadAh, rfl, ?_⟩
    rw [← lowByte_eq]
    rfl
  case sahf ah h =>
    subst h
    exact ⟨storeAh, rfl, rfl⟩
  case clc | stc | cmc | cld | std => exact ⟨_, rfl, by rfl⟩

/-- Settles O19. -/
theorem registerInstructionsComplete : Obligations.RegisterInstructionsComplete := by
  intro s i g f c hi
  obtain ⟨body, he, hb⟩ := registerForm_runs hi
  exact Sets.intro_eq he c (.refl s) hb rfl rfl rfl

/-! XCHG. -/

/-- Writing bytes looks at no general register. -/
theorem State.putBytes_withRegs (s : State) (g : Regs) (ps : List Dword) (v : Nat) :
    ({ s with regs := g } : State).putBytes ps v = { s.putBytes ps v with regs := g } := by
  induction ps generalizing v with
  | nil => rfl
  | cons p ps ih => rw [putBytes, putBytes, ih]; rfl

theorem exchangeForm_runs {s : State} {i : Instr} {w : Width} {rm : Rm} {r : Reg} (h : ExchangeForm s i w rm r) :
    exec i s = runSimple (exchange w rm r) s := by
  cases h
  case rm8R8 | rmvRv | eaxRv => rfl

/-- The state of a locked read: LOCK# asserted. -/
def State.locked (u : State) : State := { u with dec := { u.dec with held := true } }

/-- The exchange of a located operand in the closed world: the operand is written, then the register. -/
theorem exchange_ok {s u : State} {w : Width} {rm : Rm} {r : Reg} {p : Place} (c : s.closed = true)
    (hl : locate w rm true s = .ok p u) :
    exchange w rm r s =
      .ok () ((u.locked.withPlace w p (u.regs.read w r)).withReg w r (u.placeValue w p)) := by
  have hu := closed_of_locate c hl
  have hr := getPlaceToWrite_closed hu w true p
  rw [Bool.or_true] at hr
  rw [exchange, M.bind_ok hl, M.bind_ok hr, M.bind_ok (getReg_apply _ _ _),
    M.bind_ok (putPlace_closed (by exact hu) w p _), setReg_apply]
  rfl

/-! With other masters on the bus, while LOCK# holds them off. -/

theorem memRead_locked {s : State} (h : s.dec.held = true) (k : s.map = []) (ps : List Dword) :
    memRead ps s = .ok (s.mem.readAt ps) s := by
  have gap : busGap s = .ok () s := by rw [busGap_apply, h]; rfl
  have cycle : ∀ qs : List Dword, readCycle qs s = .ok (s.mem.readAt qs) s := fun qs => by
    unfold readCycle
    rw [M.bind_ok gap, M.get_bind_apply, State.kindAt_none k]
    rfl
  have key : ∀ cs : List (List Dword), readCycles readCycle cs s = .ok (s.mem.readAt cs.flatten) s := fun cs => by
    induction cs with
    | nil => rfl
    | cons q cs ih =>
      rw [readCycles, M.bind_ok ih, M.bind_ok (cycle q), List.flatten_cons, Memory.readAt_append]
      rfl
  rw [memRead, key, flatten_busCycles]

theorem memWrite_locked {s : State} (h : s.dec.held = true) (k : s.map = []) (ps : List Dword) (v : Nat) :
    memWrite ps v s = .ok () (s.putBytes ps v) := by
  have cycle : ∀ (u : State) (qs : List Dword) (x : Nat), u.dec.held = true → u.map = [] →
      writeCycle qs x u = .ok () (u.putBytes qs x) := fun u qs x hu hm => by
    have gap : busGap u = .ok () u := by rw [busGap_apply, hu]; rfl
    unfold writeCycle
    rw [M.bind_ok gap, M.get_bind_apply, State.kindAt_none hm]
    rfl
  have key : ∀ (cs : List (List Dword)) (v : Nat),
      writeCycles writeCycle cs v s = .ok () (s.putBytes cs.flatten v) := by
    intro cs
    induction cs with
    | nil => exact fun _ => rfl
    | cons q cs ih =>
      intro v
      rw [writeCycles, M.bind_ok (ih _), cycle _ _ _ (by simpa using h) (by simpa using k), List.flatten_cons,
        State.putBytes_append]
  rw [memWrite, key, flatten_busCycles]

/-- The exchange of a located operand in memory: the other masters have the bus once, before the read. -/
theorem exchange_locked {s u : State} {w : Width} {rm : Rm} {r : Reg} {ps : List Dword}
    (hl : locate w rm true s = .ok (.mem ps) u) (k : u.map = []) (hh : u.dec.held = false) :
    let v := u.othersWrite
    exchange w rm r s =
      .ok () ((v.locked.putBytes ps (u.regs.read w r).toNat).withReg w r (v.placeValue w (.mem ps))) := by
  intro v
  have km : v.locked.map = [] := by rw [← k]; exact u.othersWrite_map
  have lock : assertLock u = .ok () v.locked := by
    rw [assertLock, M.bind_ok (busGap_apply u), hh]
    rfl
  have read : getPlaceToWrite w true (.mem ps) u = .ok (v.placeValue w (.mem ps)) v.locked := by
    rw [getPlaceToWrite, if_pos rfl, M.bind_ok lock]
    exact (M.bind_ok (memRead_locked rfl km ps) _).trans rfl
  have hr : v.locked.regs = u.regs := u.othersWrite_regs
  rw [exchange, M.bind_ok hl, M.bind_ok read, M.bind_ok (getReg_apply _ _ _), putPlace,
    M.bind_ok (memWrite_locked rfl km ps _), setReg_apply, hr]

theorem locate_mem {w : Width} {ea : EA} {write : Bool} {s u : State} {p : Place}
    (hl : locate w (.mem ea) write s = .ok p u) : ∃ ps, p = .mem ps := by
  rw [locate, M.map_apply] at hl
  split at hl
  · cases hl
    exact ⟨_, rfl⟩
  · cases hl

/-- Settles O20. -/
theorem exchangeSwapsOperands : Obligations.ExchangeSwapsOperands := by
  intro s u i w rm r p hi hl
  have h := Touched.of_locate hl
  have he := exchangeForm_runs hi
  refine ⟨fun c => ⟨fun q hq => ?_, fun ea hea => ?_⟩, fun ps hp k hh => ?_⟩
  · subst hq
    cases hl
    exact Sets.intro_eq he c (.refl s) (exchange_ok c rfl) rfl rfl rfl
  · subst hea
    obtain ⟨ps, rfl⟩ := locate_mem hl
    have hn := locate_bytes hl
    rw [← h.regs, ← h.flags]
    refine WritesOver.intro
      (x := { u.locked with regs := u.regs.write w r (u.placeValue w (.mem ps)) }) he c h hn.1 hn.2 rfl ?_
    have hr := State.putBytes_regs u.locked ps (u.regs.read w r).toNat
    rw [exchange_ok c hl, State.withPlace, State.withPlace,
      State.putBytes_withRegs u.locked (u.regs.write w r (u.placeValue w (.mem ps))), State.withReg, hr]
    rfl
  · subst hp
    have hr : u.othersWrite.regs = u.regs := u.othersWrite_regs
    refine ⟨_, he.trans (runSimple_ok (exchange_locked hl k hh)), ?_, ?_, ?_⟩
    · rw [State.finish_masters]
      exact State.putBytes_masters ..
    · rw [State.finish_regs, ← h.regs, ← hr]
      exact congrArg (Regs.write · w r _) (State.putBytes_regs ..)
    · rw [State.finish_mem, ← h.regs]
      exact State.putBytes_mem ..

/-! CLI and STI. -/

theorem requireIopl_ok {s : State} (h : s.cr0.pe = false ∨ s.cpl.toNat ≤ s.flags.iopl.toNat) :
    requireIopl s = .ok () s := by
  rw [requireIopl, M.get_bind_apply, require_apply, if_pos]
  rcases h with h | h
  · rw [h]; rfl
  · rw [decide_eq_true (BitVec.le_def.2 h), Bool.or_true]

theorem requireIopl_raises {s : State} (hp : s.cr0.pe = true) (h : s.flags.iopl.toNat < s.cpl.toNat) :
    requireIopl s = .error (.exn (.gp 0)) s := by
  rw [requireIopl, M.get_bind_apply, require_apply, if_neg]
  rw [hp, decide_eq_false (fun hle => absurd (BitVec.le_def.1 hle) (not_le.2 h))]
  decide

/-- Settles O21. -/
theorem interruptFlagChecked : Obligations.InterruptFlagChecked := by
  intro s c
  refine ⟨fun h => ⟨?_, ?_⟩, fun hp h => ⟨?_, ?_⟩⟩
  · have hb : clearIf s = .ok () { s with flags := { s.flags with ifl := false } } := by
      rw [clearIf, M.bind_ok (requireIopl_ok h)]
      rfl
    exact Sets.intro_eq rfl c (.refl s) hb rfl rfl rfl
  · let t : State := { s with inhibit := s.inhibit || !s.flags.ifl }
    have hb : setIf s = .ok () { t with flags := { s.flags with ifl := true } } := by
      rw [setIf, M.bind_ok (requireIopl_ok h)]
      rfl
    exact .of_leaves (Leaves.simple rfl hb rfl (by exact c) (.refl t) rfl (fun _ _ => rfl) rfl rfl rfl rfl)
  · exact runSimple_exn (M.bind_error (requireIopl_raises hp h) _)
  · exact runSimple_exn (M.bind_error (requireIopl_raises hp h) _)

/-! MOV from a segment register, SLDT, STR and SMSW. -/

/-- Free values drawn before the accesses, taken back: what else the accesses did is the same. -/
theorem Touched.undraw {s u : State} {n : Nat} (h : Touched { s with free := n } u) :
    Touched s { u with free := s.free } where
  rest := by rw [h.rest]
  wf := h.wf
  tlb := h.tlb
  closed := h.closed
  bytes := h.bytes
  direct c p := congrArg (fun x : State => { x with free := s.free }) (h.direct c p)

theorem Reached.undraw {s u : State} {n : Nat} {w : Width} {p : Place} (h : Reached { s with free := n } u w p) :
    Reached s { u with free := s.free } w p := ⟨h.touched.undraw, h.nodup, h.length⟩

theorem msw_bits (hi : BitVec 11) (c : Cr0) :
    let v : Word := hi ++ c.low
    v.getLsbD 0 = c.pe ∧ v.getLsbD 1 = c.mp ∧ v.getLsbD 2 = c.em ∧ v.getLsbD 3 = c.ts ∧ v.getLsbD 4 = c.r := by
  have low : ∀ k < 5, (hi ++ c.low).getLsbD k = c.low.getLsbD k := fun k hk => by
    rw [BitVec.getLsbD_append, if_pos hk]
  refine ⟨(low 0 (by decide)).trans ?_, (low 1 (by decide)).trans ?_, (low 2 (by decide)).trans ?_,
    (low 3 (by decide)).trans ?_, (low 4 (by decide)).trans ?_⟩ <;>
    simp only [Cr0.low, BitVec.getLsbD_append, BitVec.getLsbD_ofBool] <;> simp

/-- Each of them writes a word with the wanted bits by `writeRm16`, after the draws it makes. -/
theorem selectorForm_runs {s : State} {i : Instr} {rm : Rm} {good : Word → Prop} {k : Nat}
    (h : SelectorForm s i rm good k) :
    ∃ body v, exec i s = runSimple body s ∧ good v ∧ body s = writeRm16 rm v { s with free := s.free + k } := by
  cases h
  case mov sr => exact ⟨moveFromSreg rm sr, _, rfl, rfl, rfl⟩
  case sldt h =>
    refine ⟨storeSelector (fun t => t.ldtr.sel) rm, _, rfl, rfl, ?_⟩
    rw [storeSelector, requireProtected, M.bind_ok (t := s) (a := ()) (by rw [M.get_bind_apply, h]; rfl)]
    rfl
  case str h =>
    refine ⟨storeSelector (fun t => t.tr.sel) rm, _, rfl, rfl, ?_⟩
    rw [storeSelector, requireProtected, M.bind_ok (t := s) (a := ()) (by rw [M.get_bind_apply, h]; rfl)]
    rfl
  case smsw =>
    refine ⟨storeMsw rm, (Config.freeValue s.free).setWidth 11 ++ s.cr0.low, rfl, ?_, rfl⟩
    exact msw_bits _ _

theorem writeRm16_mem {ea : EA} {v : Word} {s : State} : writeRm16 (.mem ea) v s = writeRm .w16 (.mem ea) v s := rfl

theorem writeRm16_reg (r : Reg) (v : Word) (s : State) : writeRm16 (.reg r) v s =
    if s.os32 then
      .ok () (({ s with free := s.free + 1 } : State).withReg .w32 r ((Config.freeValue s.free).setWidth 16 ++ v))
    else .ok () (s.withReg .w16 r v) := by
  rw [writeRm16, M.get_bind_apply]
  cases h : s.os32 <;> simp

/-- Settles O22. -/
theorem storeSelectorWritesSelector : Obligations.StoreSelectorWritesSelector := by
  intro s u i rm good k p c hi hl
  obtain ⟨body, v, he, hv, hb⟩ := selectorForm_runs hi
  refine ⟨v, hv, fun h => ?_, fun r hr h32 => ?_⟩
  · have hw : writeRm16 rm v { s with free := s.free + k } = .ok () (u.withPlace .w16 p v) := by
      rw [← writeRm_ok (by exact c) hl v]
      cases rm with
      | mem ea => rfl
      | reg r =>
        have h16 : s.os32 = false := by simpa using h
        rw [writeRm16_reg, if_neg (by rw [Bool.not_eq_true]; exact h16)]
        rfl
    exact Writes.of_reached he c (Reached.of_locate hl).undraw (hb.trans hw) (Touched.of_locate hl).flags rfl
  · subst hr
    rw [writeRm16_reg, if_pos (by exact h32)] at hb
    exact ⟨_, Sets.intro_eq he c (.refl s) hb rfl rfl rfl⟩

end Sys2Proof.Machine

/-! Privilege, mode and segment checks, processor control and conditions: obligations O32, O47 to O51, O53, O54
and O60. -/

namespace Sys2Proof.Machine

/-! Privilege and mode. -/

theorem requirePrivileged_raises {s : State} (hp : s.cr0.pe = true) (hc : s.cpl ≠ 0) :
    requirePrivileged s = .error (.exn (.gp 0)) s := by
  rw [requirePrivileged, M.get_bind_apply, hp, beq_eq_false_iff_ne.2 hc]
  rfl

theorem requireProtected_ok {s : State} (h : s.protMode = true) : requireProtected s = .ok () s := by
  rw [requireProtected, M.get_bind_apply, h]
  rfl

theorem requireProtected_raises {s : State} (h : s.protMode = false) : requireProtected s = .error (.exn .ud) s := by
  rw [requireProtected, M.get_bind_apply, h]
  rfl

/-- The privileged instructions begin with the privilege check. -/
theorem privileged_runs {s : State} {i : Instr} (h : Privileged i) :
    ∃ body : M Unit, exec i s = runSimple (requirePrivileged >>= fun _ => body) s := by
  cases h
  case fromDr r n =>
    refine ⟨do
      let s ← get
      require (!s.dr7.getLsbD 13) .db
      let v ← readDebug n
      setReg .w32 r v
      freeStatus, runSimple_congr (x := moveFromDebug r n) ?_⟩
    rw [moveFromDebug, requireDebug]
    simp only [bind_assoc]
  case toDr n r =>
    refine ⟨do
      let s ← get
      require (!s.dr7.getLsbD 13) .db
      let v ← getReg .w32 r
      writeDebug n v
      freeStatus, runSimple_congr (x := moveToDebug n r) ?_⟩
    rw [moveToDebug, requireDebug]
    simp only [bind_assoc]
  case lgdt | lidt | lmsw | clts | hlt | fromCr | toCr | fromTr | toTr => exact ⟨_, rfl⟩

/-- Settles O47: the check stands before everything else, but for LLDT and LTR, where the mode is checked first. -/
theorem privilegeTrapsRaise : Obligations.PrivilegeTrapsRaise := by
  intro s hp hc
  have raises := requirePrivileged_raises hp hc
  refine ⟨fun i hi => ?_, fun hv rm => ?_⟩
  · obtain ⟨body, he⟩ := privileged_runs (s := s) hi
    exact he.trans (runSimple_exn (M.bind_error raises _))
  · have mode := requireProtected_ok (s := s) (by simp [State.protMode, hp, hv])
    exact ⟨runSimple_exn ((M.bind_ok mode _).trans (M.bind_error raises _)),
      runSimple_exn ((M.bind_ok mode _).trans (M.bind_error raises _))⟩

/-- The instructions of Protected Mode begin with the mode check. -/
theorem protectedOnly_runs {s : State} {i : Instr} (h : ProtectedOnly i) :
    ∃ body : M Unit, exec i s = runSimple (requireProtected >>= fun _ => body) s := by
  cases h
  case arpl | sldt | str | lldt | ltr | verr | verw | lar | lsl => exact ⟨_, rfl⟩

/-- Settles O48. -/
theorem protectedModeOnlyRaise : Obligations.ProtectedModeOnlyRaise := by
  intro s i hi h
  obtain ⟨body, he⟩ := protectedOnly_runs (s := s) hi
  have mode : s.protMode = false := by rcases h with h | h <;> simp [State.protMode, h]
  exact he.trans (runSimple_exn (M.bind_error (requireProtected_raises mode) _))

/-! HLT, WAIT and ESC. -/

/-- An end that arms no single-step trap is an end from the state without TF. -/
theorem State.finish_silent (s t : State) : s.finish t .silent = s.noTrap.finish t .keepRf := by
  simp [finish, noTrap]

/-- `After` looks at nothing of the pending data breakpoints. -/
theorem After.pending {s t : State} {g : Regs} {f : Flags} {e : Dword} {ps : List Dword} {p : PendingTrap}
    (h : After { s with pend := p } t g f e ps) (hb : p.bs = s.pend.bs) (ht : p.bt = s.pend.bt) : After s t g f e ps :=
  { h with trap := by rw [← hb, ← ht]; exact h.trap }

/-- What is pending in the halted state: the data breakpoints that were held are decided. -/
def State.haltPend (s : State) : PendingTrap :=
  { s.pend with data := s.decideHeld.pend.data, exact := s.decideHeld.pend.exact }

theorem halt_ok {s : State} (h : s.mayRun) :
    halt s = .ok () { s with run := .halted, pend := s.haltPend, free := s.decideHeld.free } := by
  rw [halt, M.bind_ok (requirePrivileged_ok h)]
  exact congrArg (fun x : State => EStateM.Result.ok () { x with run := .halted }) s.decideHeld_eq

/-- Settles O49. -/
theorem processorControlCompletes : Obligations.ProcessorControlCompletes := by
  intro s c
  refine ⟨fun h => ?_, fun hts hmp => ?_, fun h => ⟨fun hb => ?_, fun hb he => ?_, fun hb he => ?_⟩,
    fun op ext rm => ⟨fun h => ?_, fun hem hts => ?_⟩⟩
  · let t : State := { s with run := .halted, pend := s.haltPend }
    have hl : Leaves s .hlt t s.regs s.flags.settled s.nextEip [] 0 :=
      Leaves.simple rfl (halt_ok h) rfl (by exact c) (.refl t) rfl (fun _ _ => rfl) rfl rfl rfl rfl
    obtain ⟨r, hr, ha, -⟩ := hl
    exact ⟨r, hr, After.pending (s := { s with run := .halted }) ha rfl rfl⟩
  · refine runInstr_exn ?_
    rw [waitBusy, M.get_bind_apply, require_fail (by rw [hts, hmp]; rfl)]
  · have hb : waitBusy s = .ok .silent s := by
      rw [waitBusy, M.get_bind_apply, require_pass (by rcases h with h | h <;> simp [h]), if_pos hb]
      rfl
    refine ⟨_, runInstr_ok hb, ?_⟩
    rw [State.finish_silent]
    exact After.intro (s := s.noTrap) (v := s) (by exact c) (.refl _) .keepRf (by decide) rfl fun _ _ => rfl
  · refine runInstr_exn ?_
    rw [waitBusy, M.get_bind_apply, require_pass (by rcases h with h | h <;> simp [h]), hb, if_neg (by decide),
      require_fail (by rw [he]; rfl)]
  · have hb : waitBusy s = .ok .plain { s with eip := s.nextEip } := by
      rw [waitBusy, M.get_bind_apply, require_pass (by rcases h with h | h <;> simp [h]), hb, if_neg (by decide),
        require_pass (by rw [he]; rfl)]
      rfl
    exact Goes.intro rfl c (.refl s) hb rfl
  · refine runInstr_exn ?_
    rw [escape, M.get_bind_apply, require_fail (by rcases h with h | h <;> simp [h])]
  · have hb : escape s = .error (.refused .escWithoutEmulation) s := by
      rw [escape, M.get_bind_apply, require_pass (by simp [hem, hts])]
      rfl
    exact (show exec (.esc op ext rm) s = runInstr escape s from rfl).trans (by rw [runInstr, hb]; rfl)

/-! Prefixes, segment checks. -/

/-- Settles O50. -/
theorem prefixesRecordThemselves : Obligations.PrefixesRecordThemselves := by
  intro s i d h
  cases h <;> rfl

/-- Settles O51. -/
theorem segmentChecksRaise : Obligations.SegmentChecksRaise := by
  intro seg f off n write hn inside right
  have every : (∀ k < n, inside (off.toNat + k)) ↔
      if seg.expandDown then seg.limit.toNat < off.toNat ∧
        off.toNat + (n - 1) ≤ (if seg.big then 0xFFFFFFFF else 0xFFFF)
      else off.toNat + (n - 1) ≤ seg.limit.toNat := by
    by_cases he : seg.expandDown = true
    · simp only [inside, if_pos he]
      exact ⟨fun h => ⟨(h 0 hn).1, (h (n - 1) (by omega)).2⟩, fun h k hk => ⟨by omega, by omega⟩⟩
    · simp only [inside, if_neg he]
      exact ⟨fun h => h (n - 1) (by omega), fun h k hk => by omega⟩
  have kind : ((write && !seg.writable) = false ∧ (!write && seg.code && !seg.readable) = false) ↔ right := by
    cases write with
    | true => simp [right]
    | false => cases hc : seg.code <;> simp [right, hc]
  rw [segCheck, every, ← kind]
  refine ⟨fun hv => ?_, fun hv ⟨hw, hr⟩ hi => ?_, fun hv hbad => ?_⟩
  · rw [hv]
    rfl
  · rw [hv, hw, hr]
    cases he : seg.expandDown <;> simp only [he, if_true, if_false, Bool.false_eq_true] at hi <;>
      simp <;> omega
  · rw [hv]
    cases hw : write && !seg.writable with
    | true => rfl
    | false =>
      cases hr : !write && seg.code && !seg.readable with
      | true => rfl
      | false =>
        simp only [hw, hr, and_self, true_and] at hbad
        cases he : seg.expandDown <;> simp only [he, if_true, if_false, Bool.false_eq_true] at hbad <;>
          simp <;> omega

/-! Conditions. -/

section
variable (f : Flags) {w : Width} (a b : BitVec w.bits)

theorem subtracting_zf : (f.subtracting a b false).zf = decide (a = b) := by
  have h : (f.subtracting a b false).zf = (subValue a b false == 0) := rfl
  rw [h, subValue_false, Bool.beq_eq_decide_eq]
  exact decide_eq_decide.2 sub_eq_zero

theorem subtracting_cf : (f.subtracting a b false).cf = decide (a.toNat < b.toNat) := rfl

theorem subtracting_sf : (f.subtracting a b false).sf = decide ((a - b).toInt < 0) := by
  have h : (f.subtracting a b false).sf = (subValue a b false).msb := rfl
  rw [h, subValue_false, BitVec.msb_eq_toInt]

/-- The sign of the difference, corrected by the overflow, orders the signed operands. -/
theorem subtracting_less :
    ((f.subtracting a b false).sf != (f.subtracting a b false).of) = decide (a.toInt < b.toInt) := by
  have hof : (f.subtracting a b false).of = decide ((a - b).toInt ≠ a.toInt - b.toInt) := by
    have h := subValue_overflow (bits_pos w) a b false
    rw [subValue_false, Bool.toNat_false, Nat.cast_zero, sub_zero] at h
    rw [← h]
    simp [Flags.subtracting, subValue_false]
  have hwrap : (a - b).toInt = (a.toInt - b.toInt).bmod (2 * 2 ^ (w.bits - 1)) := by
    rw [← pow_succ', Nat.sub_add_cancel (bits_pos w), ← BitVec.toInt_sub]
  have := toInt_bounds a
  have := toInt_bounds b
  rw [bmod_eq_wrap (by omega) (by omega)] at hwrap
  rw [subtracting_sf, hof]
  generalize (a - b).toInt = r at hwrap ⊢
  have := Nat.two_pow_pos (w.bits - 1)
  by_cases h : r = a.toInt - b.toInt
  · rw [decide_eq_false (not_not.2 h), Bool.bne_false, decide_eq_decide]
    omega
  · rw [decide_eq_true h, Bool.bne_true, ← decide_not, decide_eq_decide]
    split at hwrap
    · omega
    · split at hwrap <;> omega

end

/-- Settles O32. -/
theorem conditionsAfterCompare : Obligations.ConditionsAfterCompare := by
  intro f w a b g
  have hz : g.zf = decide (a = b) := subtracting_zf f a b
  have hc : g.cf = decide (a.toNat < b.toNat) := subtracting_cf f a b
  have hs : g.sf = decide ((a - b).toInt < 0) := subtracting_sf f a b
  have hl : (g.sf != g.of) = decide (a.toInt < b.toInt) := subtracting_less f a b
  have hge : (g.sf == g.of) = decide (b.toInt ≤ a.toInt) := by
    rw [← Bool.not_not (g.sf == g.of), ← bne, hl, ← decide_not, decide_eq_decide, not_lt]
  have eqN : a = b ↔ a.toNat = b.toNat := BitVec.toNat_inj.symm
  have eqI : a = b ↔ a.toInt = b.toInt := BitVec.toInt_inj.symm
  refine ⟨?_, ?_, ?_, ?_, ?_, ?_, ?_, ?_, ?_, ?_, ?_, ?_⟩
  · simp [Flags.holds, hc]
  · simp [Flags.holds, hc]
  · simp [Flags.holds, hc, hz, eqN]; omega
  · simp [Flags.holds, hc, hz, eqN]; omega
  · simp only [Flags.holds, hl, decide_eq_true_eq]
  · simp only [Flags.holds, hge, decide_eq_true_eq]
  · simp only [Flags.holds, hl, hz, eqI, Bool.or_eq_true, decide_eq_true_eq]; omega
  · simp only [Flags.holds, hge, hz, eqI, Bool.and_eq_true, Bool.not_eq_true', decide_eq_true_eq,
      decide_eq_false_iff_not]; omega
  · simp [Flags.holds, hz]
  · simp [Flags.holds, hz]
  · simp [Flags.holds, hs]
  · simp [Flags.holds, hs]

/-! Reset, and some words decoded. -/

/-- Settles O53. -/
theorem resetStateValues : Obligations.ResetStateValues := by
  refine ⟨by decide, rfl, rfl, rfl, rfl, rfl, rfl, rfl, rfl, rfl, fun r => ?_, by decide, rfl, by decide, rfl, rfl, rfl,
    rfl, rfl⟩
  cases r with
  | cs => exact ⟨rfl, fun h => absurd rfl h⟩
  | es | ss | ds | fs | gs => exact ⟨rfl, fun _ => ⟨rfl, rfl⟩⟩

/-- Settles O54. -/
theorem resetInvariant : Obligations.ResetInvariant := reset_inv

/-- Settles O60. -/
theorem decodedWordsAreTheirInstructions : Obligations.DecodedWordsAreTheirInstructions :=
  ⟨rfl, rfl, rfl, rfl, rfl, rfl, rfl, rfl, rfl⟩

end Sys2Proof.Machine

/-! The stack: obligations O23 and O24. -/

namespace Sys2Proof.Machine

/-! The stack pointer. -/

theorem extractLsb'_setWidth_low (x : Word) : (x.setWidth 32 : Dword).extractLsb' 0 16 = x := by
  apply BitVec.eq_of_toNat_eq
  have := x.isLt
  rw [BitVec.extractLsb'_toNat, BitVec.toNat_setWidth, Nat.shiftRight_zero]
  omega

/-- The stack pointer is already cut to its width. -/
theorem State.stackWrap_stackPtr (s : State) : s.stackWrap s.stackPtr = s.stackPtr := by
  unfold stackWrap stackPtr
  split
  · rfl
  · rw [extractLsb'_setWidth_low]

theorem popLocate_apply (n k : Nat) (s : State) :
    popLocate n k s = segLocate .ss (s.stackWrap (s.stackPtr + BitVec.ofNat 32 k)) n false s := by
  rw [popLocate, M.get_bind_apply]

theorem popLocate_zero (n : Nat) (s : State) : popLocate n 0 s = segLocate .ss s.stackPtr n false s := by
  rw [popLocate_apply, show s.stackPtr + BitVec.ofNat 32 0 = s.stackPtr from BitVec.add_zero _,
    State.stackWrap_stackPtr]

theorem pushLocate_apply (n k : Nat) (s : State) :
    pushLocate n k s = segLocate .ss (s.stackWrap (s.stackPtr - BitVec.ofNat 32 (n * k))) n true s := by
  rw [pushLocate, M.get_bind_apply]

theorem pushLocate_one (n : Nat) (s : State) :
    pushLocate n 1 s = segLocate .ss (s.stackWrap (s.stackPtr - BitVec.ofNat 32 n)) n true s := by
  rw [pushLocate_apply, Nat.mul_one]

theorem moveStackPtr_moved (v : Dword) (s : State) : moveStackPtr v s = .ok () { s with regs := s.moved v } := rfl

theorem Touched.moved {s u : State} (h : Touched s u) (v : Dword) : u.moved v = s.moved v := by
  rw [State.moved, State.moved, h.regs, h.stackPtr, h.stackSet]

theorem moveStackPtr_put (v : Dword) (s : State) (ps : List Dword) (x : Nat) :
    moveStackPtr v (s.putBytes ps x) = .ok () { s.putBytes ps x with regs := s.moved v } := by
  rw [moveStackPtr_moved, s.putBytes_eq]
  rfl

/-- An instruction that stores one number in located bytes. -/
theorem Leaves.written {s u x : State} {i : Instr} {body : M Done} {d : Done} {g : Regs} {f f' : Flags} {e : Dword}
    {ps : List Dword} {v : Nat} (he : exec i s = runInstr body s) (hd : d ≠ .silent) (c : s.closed = true)
    (h : Touched s u) (hn : ps.Nodup) (hv : v < 256 ^ ps.length) (hb : body s = .ok d x)
    (hx : x = { u with regs := g, flags := f', eip := e, mem := u.mem.writeAt ps v, prefetch := x.prefetch,
                       free := x.free, dec := { u.dec with held := x.dec.held } })
    (hf : ({ f' with rf := if d = .plain then false else f'.rf } : Flags) = f) : Leaves s i s g f e ps v := by
  have hm := h.wf (s.closed_wf c)
  exact Leaves.intro he hb hd rfl c h (by rw [hx]) (fun a ha => by rw [hx]; exact Memory.read_writeAt_other ps _ ha)
    (by rw [hx]; exact Memory.readAt_writeAt_same hm hn hv) (by rw [hx]) (by rw [hx]; exact hf) (by rw [hx])

/-- The same for an instruction that goes on to the next one. -/
theorem Leaves.written_simple {s u x : State} {i : Instr} {body : M Unit} {g : Regs} {f : Flags} {ps : List Dword}
    {v : Nat} (he : exec i s = runSimple body s) (c : s.closed = true) (h : Touched s u) (hn : ps.Nodup)
    (hv : v < 256 ^ ps.length) (hb : body s = .ok () x)
    (hx : x = { u with regs := g, flags := f, mem := u.mem.writeAt ps v, prefetch := x.prefetch,
                       free := x.free, dec := { u.dec with held := x.dec.held } }) :
    Leaves s i s g f.settled s.nextEip ps v := by
  have hi : x.nextEip = s.nextEip := by rw [hx]; exact h.nextEip
  refine Leaves.written (x := { x with eip := x.nextEip }) (d := .plain) he (by decide) c h hn hv
    (by rw [M.bind_ok hb]; rfl) ?_ rfl
  rw [hi]
  exact congrArg (fun y : State => { y with eip := s.nextEip }) hx

/-! PUSH. -/

/-- A push of `v` at the slot located. -/
theorem push_ok {s t : State} {w : Width} {ps : List Dword} (c : s.closed = true)
    (hl : segLocate .ss (s.stackWrap (s.stackPtr - BitVec.ofNat 32 w.bytes)) w.bytes true s = .ok ps t)
    (v : BitVec w.bits) :
    push w v s = .ok () { t.putBytes ps v.toNat with regs := s.moved (-(BitVec.ofNat 32 w.bytes)) } := by
  have h := Touched.of_segLocate hl
  rw [push, M.bind_ok ((pushLocate_one _ _).trans hl), M.bind_ok (memWrite_closed (h.stays c) ps _), moveStackPtr_put,
    h.moved]

theorem requireIopl86_ok {s : State} (h : s.flags.vm = false ∨ s.flags.iopl = 3) : requireIopl86 s = .ok () s := by
  rw [requireIopl86, M.get_bind_apply, require_apply, if_pos]
  rcases h with h | h <;> simp [h]

theorem requireIopl86_raises {s : State} (hv : s.flags.vm = true) (hi : s.flags.iopl ≠ 3) :
    requireIopl86 s = .error (.exn (.gp 0)) s := by
  rw [requireIopl86, M.get_bind_apply, require_apply, if_neg]
  simp only [hv, Bool.not_true, Bool.false_or, beq_iff_eq]
  exact hi

/-- Every PUSH stores its value in the slot and moves the stack pointer. -/
theorem pushForm_runs {s u t : State} {i : Instr} {w : Width} {v : State → BitVec w.bits} {ps : List Dword}
    (c : s.closed = true) (h : PushForm s i w v u)
    (hl : segLocate .ss (s.stackWrap (s.stackPtr - BitVec.ofNat 32 w.bytes)) w.bytes true u = .ok ps t) :
    ∃ body, exec i s = runSimple body s ∧
      body s = .ok () { t.putBytes ps (v t).toNat with regs := s.moved (-(BitVec.ofNat 32 w.bytes)) } := by
  cases h
  case rv r => exact ⟨pushReg s.vWidth r, rfl, push_ok c hl _⟩
  case immv imm => exact ⟨push s.vWidth (immV s.vWidth imm), rfl, push_ok c hl _⟩
  case simm8 imm => exact ⟨push s.vWidth (immS s.vWidth imm), rfl, push_ok c hl _⟩
  case flags h =>
    refine ⟨pushFlags s.vWidth, rfl, ?_⟩
    rw [pushFlags, M.bind_ok (requireIopl86_ok h)]
    exact push_ok c hl _
  case rmv rm p h =>
    refine ⟨pushRm s.vWidth rm, rfl, ?_⟩
    have hu := Touched.of_locate h
    have ht := Touched.of_segLocate hl
    have ct := ht.stays (hu.stays c)
    rw [← hu.stackPtr, ← hu.stackWrap] at hl
    rw [pushRm, M.bind_ok h, M.bind_ok ((pushLocate_one _ _).trans hl), M.bind_ok (getPlace_closed ct _ p),
      M.bind_ok (memWrite_closed ct ps _), moveStackPtr_put, (hu.trans ht).moved]

theorem PushForm.touched {s u : State} {i : Instr} {w : Width} {v : State → BitVec w.bits} (h : PushForm s i w v u) :
    Touched s u := by
  cases h with
  | rmv rm p u h => exact .of_locate h
  | rv | immv | simm8 | flags => exact .refl s

theorem pushSregForm_runs {s : State} {i : Instr} {sr : Sreg} (h : PushSregForm i sr) :
    exec i s = runSimple (pushSreg sr) s := by
  cases h <;> rfl

/-- PUSH of a segment register: with a 32-bit operand size the upper half of the slot is drawn first. -/
theorem pushSreg_ok {s t : State} {sr : Sreg} {ps : List Dword} (c : s.closed = true)
    (hl : segLocate .ss (s.stackWrap (s.stackPtr - BitVec.ofNat 32 (itemBytes s.os32))) (itemBytes s.os32) true
      { s with free := s.free + s.os32.toNat } = .ok ps t) :
    ∃ hi, (s.os32 = false → hi = 0) ∧ hi < 65536 ∧ pushSreg sr s =
      .ok () { t.putBytes ps (hi * 65536 + (s.segs.get sr).sel.toNat) with
               regs := s.moved (-(BitVec.ofNat 32 (itemBytes s.os32))) } := by
  rw [pushSreg, M.get_bind_apply]
  cases h32 : s.os32 with
  | false =>
    rw [h32] at hl
    refine ⟨0, fun _ => rfl, by decide, ?_⟩
    rw [Nat.zero_mul, Nat.zero_add]
    exact push_ok (w := .w16) c hl _
  | true =>
    rw [h32] at hl
    let hi : Word := (Config.freeValue s.free).setWidth 16
    refine ⟨hi.toNat, fun h => absurd h (by decide), hi.isLt, ?_⟩
    have hn : (hi ++ (s.segs.get sr).sel).toNat = hi.toNat * 65536 + (s.segs.get sr).sel.toNat := by
      rw [toNat_append_eq, Nat.mul_comm]
      rfl
    rw [← hn]
    exact push_ok (w := .w32) (s := { s with free := s.free + 1 }) c hl (hi ++ (s.segs.get sr).sel)

/-- Settles O23. -/
theorem pushStoresItsOperand : Obligations.PushStoresItsOperand := by
  intro s u t i ps c
  refine ⟨fun w v hi hl => ?_, fun sr hi hl => ?_, fun hv hi => ?_⟩
  · obtain ⟨body, he, hb⟩ := pushForm_runs c hi hl
    obtain ⟨hn, hd⟩ := segLocate_bytes (bytes_le w) hl
    have h := hi.touched.trans (Touched.of_segLocate hl)
    rw [t.putBytes_eq] at hb
    exact Leaves.written_simple he c h hd (hn ▸ toNat_lt_pow w _) hb (by rw [← h.flags])
  · obtain ⟨hi', h16, hlt, hb⟩ := pushSreg_ok (sr := sr) c hl
    have hle : itemBytes s.os32 ≤ 4096 := by cases s.os32 <;> decide
    obtain ⟨hn, hd⟩ := segLocate_bytes hle hl
    have h := (Touched.of_segLocate hl).undraw
    have hf : t.flags = s.flags := (Touched.of_segLocate hl).flags
    refine ⟨hi', h16, hlt, ?_⟩
    rw [t.putBytes_eq] at hb
    refine Leaves.written_simple (pushSregForm_runs hi) c h hd ?_ hb (by rw [← hf])
    have hs := (s.segs.get sr).sel.isLt
    rw [hn]
    cases h32 : s.os32 with
    | false =>
      rw [h16 h32]
      simpa [itemBytes] using hs
    | true =>
      have : (256 : Nat) ^ itemBytes true = 65536 * 65536 := by decide
      omega
  · refine runSimple_exn ?_
    rw [pushFlags, M.bind_error (requireIopl86_raises hv hi)]

/-! POP. -/

/-- Registers written after the accesses, taken back. -/
theorem Touched.unwrite {s u : State} {g : Regs} (h : Touched { s with regs := g } u) :
    Touched s { u with regs := s.regs } where
  rest := by rw [h.rest]
  wf := h.wf
  tlb := h.tlb
  closed := h.closed
  bytes := h.bytes
  direct c p := congrArg (fun x : State => { x with regs := s.regs }) (h.direct c p)

theorem peek_ok {s u : State} {w : Width} {ps : List Dword} (c : s.closed = true)
    (hl : segLocate .ss s.stackPtr w.bytes false s = .ok ps u) :
    peek w 0 s = .ok (BitVec.ofNat w.bits (u.mem.readAt ps)) u := by
  rw [peek, M.bind_ok ((popLocate_zero _ _).trans hl),
    M.bind_ok (memRead_closed ((Touched.of_segLocate hl).stays c) ps)]
  rfl

theorem pop_ok {s u : State} {w : Width} {ps : List Dword} (c : s.closed = true)
    (hl : segLocate .ss s.stackPtr w.bytes false s = .ok ps u) :
    pop w s = .ok (BitVec.ofNat w.bits (u.mem.readAt ps))
      { u with regs := s.moved (BitVec.ofNat 32 w.bytes) } := by
  rw [pop, M.bind_ok (peek_ok c hl), M.bind_ok (moveStackPtr_moved _ _), (Touched.of_segLocate hl).moved]
  rfl

/-- POP into r/m: the destination is located with the stack pointer already moved. -/
theorem popRm_ok {s u t : State} {w : Width} {rm : Rm} {p : Place} {ps : List Dword} (c : s.closed = true)
    (hl : segLocate .ss s.stackPtr w.bytes false s = .ok ps u)
    (hd : locate w rm true { u with regs := s.moved (BitVec.ofNat 32 w.bytes) } = .ok p t) :
    popRm w rm s = .ok () (t.withPlace w p (BitVec.ofNat w.bits (t.mem.readAt ps))) := by
  have h := Touched.of_segLocate hl
  have hc : t.closed = true := (Touched.of_locate hd).stays (by exact h.stays c)
  rw [popRm, M.bind_ok ((popLocate_zero _ _).trans hl), M.bind_ok (moveStackPtr_moved _ _), h.moved, M.bind_ok hd,
    M.bind_ok (memRead_closed hc ps), putPlace_closed hc]

/-- The flags POPF and IRET load, as the privilege allows. -/
theorem popped_eq_loadedFlags (s : State) (v : Dword) :
    s.flags.popped v s.os32 (!s.cr0.pe) s.cpl = s.loadedFlags v := by
  have hle : (s.cpl ≤ s.flags.iopl) = (s.cpl.toNat ≤ s.flags.iopl.toNat) := propext BitVec.le_def
  simp only [Flags.popped, State.loadedFlags, hle, Bool.or_eq_true, Bool.not_eq_true', decide_eq_true_eq, beq_iff_eq]

theorem popFlags_ok {s u : State} {w : Width} {ps : List Dword} (c : s.closed = true)
    (hi : s.flags.vm = false ∨ s.flags.iopl = 3)
    (hl : segLocate .ss s.stackPtr w.bytes false s = .ok ps u) :
    popFlags w s = .ok .keepRf
      { u with regs := s.moved (BitVec.ofNat 32 w.bytes), eip := s.nextEip,
               flags := s.loadedFlags ((BitVec.ofNat w.bits (u.mem.readAt ps)).setWidth 32) } := by
  rw [popFlags, M.bind_ok (requireIopl86_ok hi), M.get_bind_apply, M.bind_ok (pop_ok c hl), popped_eq_loadedFlags,
    ← (Touched.of_segLocate hl).nextEip]
  rfl

/-- Settles O24. -/
theorem popWritesItsDestination : Obligations.PopWritesItsDestination := by
  intro s c
  refine ⟨fun u ps hl => ⟨fun r => ?_, fun rm p t hd => ?_, fun hi => ?_⟩, fun hv hi => ?_⟩
  · have h := Touched.of_segLocate hl
    have hb : popReg s.vWidth r s = _ := M.bind_ok (pop_ok c hl) _
    exact Sets.intro_eq rfl c h hb rfl h.flags rfl
  · have h := Touched.of_segLocate hl
    have ht := Touched.of_locate hd
    have hn := locate_bytes hd
    have hst : Touched s { t with regs := u.regs } := h.trans ht.unwrite
    have hf : t.flags = s.flags := ht.flags.trans h.flags
    have hr : t.regs = s.moved (BitVec.ofNat 32 s.vWidth.bytes) := ht.regs
    rw [← hf]
    have := WritesOver.intro (i := .popRmv rm) (x := t) rfl c hst hn.1 hn.2 rfl (popRm_ok c hl hd)
    rwa [hr] at this
  · have h := Touched.of_segLocate hl
    exact Leaves.intro_none rfl (popFlags_ok c hi hl) (by decide) rfl c h rfl rfl rfl rfl
  · refine runInstr_exn ?_
    rw [popFlags, M.bind_error (requireIopl86_raises hv hi)]

end Sys2Proof.Machine

/-! Transfers inside the segment: obligations O31 and O33. -/

namespace Sys2Proof.Machine

/-! Counts and targets. -/

/-- The model moves a register by the address size as the rule does. -/
theorem asSet_eq_bump (s : State) (r : Reg) (v : Dword) : s.asSet r (s.regs.get r + v) = s.bump s.regs r v := by
  have low : (s.regs.get r + v).extractLsb' 0 16 = (s.regs.get r).extractLsb' 0 16 + v.setWidth 16 := by
    apply BitVec.eq_of_toNat_eq
    simp [BitVec.toNat_add, BitVec.extractLsb'_toNat]
  rw [State.asSet, State.bump]
  split
  · rfl
  · rw [low]
    rfl

theorem addAsReg_apply (r : Reg) (v : Dword) (s : State) :
    addAsReg r v s = .ok () { s with regs := s.bump s.regs r v } := by
  rw [addAsReg, M.modify_apply, asSet_eq_bump]

theorem setWidth_eq_zero_iff (x : Word) : (x.setWidth 32 : Dword) = 0 ↔ x.toNat = 0 := by
  rw [← BitVec.toNat_inj, BitVec.toNat_setWidth]
  have := x.isLt
  have h0 : (0 : Dword).toNat = 0 := rfl
  rw [h0]
  omega

/-- The model tests the count as the rule does. -/
theorem asReg_eq_zero_iff (s : State) : s.asReg .ecx = 0 ↔ s.countOf s.regs = 0 := by
  unfold State.asReg State.asWrap State.countOf
  split
  · exact ⟨fun h => by rw [show s.regs.ecx = 0 from h]; rfl, fun h => BitVec.eq_of_toNat_eq h⟩
  · exact setWidth_eq_zero_iff _

theorem osWrap_eq (s : State) (v : Dword) : s.osWrap v = (v.setWidth s.vWidth.bits).setWidth 32 := by
  unfold State.osWrap State.vWidth
  cases s.os32 with
  | true => exact (BitVec.setWidth_eq _).symm.trans (BitVec.setWidth_eq _).symm |>.trans rfl
  | false =>
    apply BitVec.eq_of_toNat_eq
    simp [Width.ofOs, BitVec.extractLsb'_toNat]
    rfl

theorem requireInCS_ok {s : State} {t : Dword} (h : t ≤ s.segs.cs.limit) : requireInCS t s = .ok () s := by
  rw [requireInCS, M.get_bind_apply, decide_eq_true h]
  rfl

theorem requireInCS_raises {s : State} {t : Dword} (h : s.segs.cs.limit < t) :
    requireInCS t s = .error (.exn (.gp 0)) s := by
  have hle : ¬ t ≤ s.segs.cs.limit := fun hle => absurd (BitVec.le_def.1 hle) (not_le.2 (BitVec.lt_def.1 h))
  rw [requireInCS, M.get_bind_apply, decide_eq_false hle]
  rfl

theorem setEip_ok {s : State} {t : Dword} (h : t ≤ s.segs.cs.limit) :
    setEip t s = .ok () { s with eip := t, prefetch := [] } := by
  rw [setEip, M.bind_ok (requireInCS_ok h)]
  rfl

theorem setEip_raises {s : State} {t : Dword} (h : s.segs.cs.limit < t) : setEip t s = .error (.exn (.gp 0)) s := by
  rw [setEip, M.bind_error (requireInCS_raises h)]

/-! Relative branches. -/

theorem jumpIf_not (rel : Dword) (s : State) : jumpIf false rel s = .ok .plain { s with eip := s.nextEip } := rfl

theorem jumpIf_in {s : State} {rel : Dword} (h : s.nearTarget rel ≤ s.segs.cs.limit) :
    jumpIf true rel s = .ok .plain { s with eip := s.nearTarget rel, prefetch := [] } := by
  rw [jumpIf, M.get_bind_apply, if_pos rfl, M.bind_ok (setEip_ok h)]
  rfl

theorem jumpIf_out {s : State} {rel : Dword} (h : s.segs.cs.limit < s.nearTarget rel) :
    jumpIf true rel s = .error (.exn (.gp 0)) s := by
  rw [jumpIf, M.get_bind_apply, if_pos rfl, M.bind_error (setEip_raises h)]

theorem condJump_runs {s : State} {i : Instr} {c : Cond} {rel : Dword} (h : CondJump i c rel) :
    exec i s = runInstr (jumpCond c rel) s := by
  cases h <;> rfl

theorem loopIf_apply (cond : Flags → Bool) (rel : Byte) (s : State) :
    loopIf cond rel s =
      jumpIf (decide (s.countOf s.counted ≠ 0) && cond s.flags) (rel.signExtend 32) { s with regs := s.counted } := by
  have hz : (({ s with regs := s.counted } : State).asReg .ecx ≠ 0) = (s.countOf s.counted ≠ 0) :=
    congrArg Not (propext (asReg_eq_zero_iff { s with regs := s.counted }))
  rw [loopIf, M.bind_ok (addAsReg_apply _ _ _), M.get_bind_apply]
  exact congrArg (fun b => jumpIf (b && cond s.flags) (rel.signExtend 32) { s with regs := s.counted })
    (decide_eq_decide.2 hz.to_iff)

/-- Every relative branch is a jump under its condition, with the count already written. -/
theorem branchForm_runs {s : State} {i : Instr} {taken : Bool} {rel : Dword} {g : Regs}
    (h : BranchForm s i taken rel g) :
    ∃ body, exec i s = runInstr body s ∧ body s = jumpIf taken rel { s with regs := g } := by
  cases h
  case cond c h => exact ⟨_, condJump_runs h, rfl⟩
  case jmp8 r => exact ⟨jumpIf true (r.signExtend 32), rfl, rfl⟩
  case jmpv => exact ⟨jumpIf true rel, rfl, rfl⟩
  case loop r => exact ⟨loopIf (fun _ => true) r, rfl, by rw [loopIf_apply, Bool.and_true]⟩
  case loope r => exact ⟨loopIf (fun f => f.zf) r, rfl, loopIf_apply _ _ _⟩
  case loopne r => exact ⟨loopIf (fun f => !f.zf) r, rfl, loopIf_apply _ _ _⟩
  case jcxz r =>
    refine ⟨jumpCountZero r, rfl, ?_⟩
    rw [jumpCountZero, M.get_bind_apply, decide_eq_decide.2 (asReg_eq_zero_iff s)]

/-- Settles O31. -/
theorem relativeBranchesGoToTarget : Obligations.RelativeBranchesGoToTarget := by
  intro s i taken rel g c hi target
  obtain ⟨body, he, hb⟩ := branchForm_runs hi
  have ht : ({ s with regs := g } : State).nearTarget rel = target := osWrap_eq s _
  refine ⟨fun h => ?_, fun h hle => ?_, fun h hlt => ?_⟩
  · subst h
    exact Goes.intro he c (.refl s) (hb.trans (jumpIf_not _ _)) rfl
  · subst h
    have hgo := Goes.intro he c (.refl s) (hb.trans (jumpIf_in (by rw [ht]; exact hle))) rfl
    rwa [ht] at hgo
  · subst h
    have hr := runInstr_exn (hb.trans (jumpIf_out (by rw [ht]; exact hlt)))
    exact he.trans (hr.trans rfl)

/-! JMP r/m, near CALL and near RET. -/

/-- The push of a near CALL, once its target is known. -/
theorem callNear_in {s u v : State} {w : Width} {target : Dword} {ps : List Dword} (c : u.closed = true)
    (h : Touched s u) (hle : target ≤ s.segs.cs.limit)
    (hl : segLocate .ss (s.stackWrap (s.stackPtr - BitVec.ofNat 32 w.bytes)) w.bytes true u = .ok ps v) :
    callNear w target u = .ok .plain { v.putBytes ps (s.nextEip.setWidth w.bits).toNat with
      regs := s.moved (-(BitVec.ofNat 32 w.bytes)), eip := target, prefetch := [] } := by
  rw [← h.stackPtr, ← h.stackWrap] at hl
  rw [callNear, M.get_bind_apply, M.bind_ok (requireInCS_ok (by rw [h.segs]; exact hle)), h.nextEip,
    M.bind_ok (push_ok c hl _), h.moved]
  rfl

theorem callNear_out {s u : State} {w : Width} {target : Dword} (h : Touched s u) (hlt : s.segs.cs.limit < target) :
    callNear w target u = .error (.exn (.gp 0)) u := by
  rw [callNear, M.get_bind_apply, M.bind_error (requireInCS_raises (by rw [h.segs]; exact hlt))]

/-- A near CALL finds its target and then calls it. -/
theorem callForm_runs {s u : State} {i : Instr} {target : Dword} (c : s.closed = true) (h : CallForm s i target u) :
    Touched s u ∧ ∃ body, exec i s = runInstr body s ∧ body s = callNear s.vWidth target u := by
  cases h
  case rel r =>
    refine ⟨.refl s, callRelative r, rfl, ?_⟩
    rw [callRelative, M.get_bind_apply, State.nearTarget, osWrap_eq]
  case rm rm p h =>
    refine ⟨.of_locate h, callRm s.vWidth rm, rfl, ?_⟩
    rw [callRm, M.bind_ok (readRm_ok c h)]

theorem retForm_runs {s : State} {i : Instr} {more : Word} (h : RetForm i more) :
    exec i s = runInstr (returnNear s.vWidth more) s := by
  cases h <;> rfl

/-- The popped target, extended from the operand size, is the number of its bytes. -/
theorem popped_target {s u : State} {w : Width} {ps : List Dword}
    (hl : segLocate .ss s.stackPtr w.bytes false s = .ok ps u) :
    ((BitVec.ofNat w.bits (u.mem.readAt ps)).setWidth 32 : Dword) = BitVec.ofNat 32 (u.mem.readAt ps) := by
  have hlt := u.mem.readAt_lt ps
  rw [(segLocate_bytes (bytes_le w) hl).1] at hlt
  apply BitVec.eq_of_toNat_eq
  have hm : u.mem.readAt ps % 2 ^ w.bits = u.mem.readAt ps := Nat.mod_eq_of_lt (by cases w <;> exact hlt)
  rw [BitVec.toNat_setWidth, BitVec.toNat_ofNat, BitVec.toNat_ofNat, hm]

theorem returnNear_in {s u : State} {w : Width} {ps : List Dword} (c : s.closed = true)
    (hl : segLocate .ss s.stackPtr w.bytes false s = .ok ps u)
    (hle : (BitVec.ofNat w.bits (u.mem.readAt ps)).setWidth 32 ≤ s.segs.cs.limit) (more : Word) :
    returnNear w more s = .ok .plain { u with
      regs := s.moved (BitVec.ofNat 32 (w.bytes + more.toNat)),
      eip := (BitVec.ofNat w.bits (u.mem.readAt ps)).setWidth 32, prefetch := [] } := by
  have h := Touched.of_segLocate hl
  rw [returnNear, M.bind_ok (peek_ok c hl), M.bind_ok (requireInCS_ok (by rw [h.segs]; exact hle)),
    M.bind_ok (moveStackPtr_moved _ _), h.moved]
  rfl

theorem returnNear_out {s u : State} {w : Width} {ps : List Dword} (c : s.closed = true)
    (hl : segLocate .ss s.stackPtr w.bytes false s = .ok ps u)
    (hlt : s.segs.cs.limit < (BitVec.ofNat w.bits (u.mem.readAt ps)).setWidth 32) (more : Word) :
    returnNear w more s = .error (.exn (.gp 0)) u := by
  have h := Touched.of_segLocate hl
  rw [returnNear, M.bind_ok (peek_ok c hl), M.bind_error (requireInCS_raises (by rw [h.segs]; exact hlt))]

/-- Settles O33. -/
theorem nearTransfersGoToTarget : Obligations.NearTransfersGoToTarget := by
  intro s u c
  refine ⟨fun rm p hl => ⟨fun hle => ?_, fun hlt => ?_⟩, fun i target hi => ⟨fun hlt => ?_, fun hle ps v hl => ?_⟩,
    fun i more ps hi hl => ⟨fun hle => ?_, fun hlt => ?_⟩⟩
  · have h := Touched.of_locate hl
    have hb : jumpRm s.vWidth rm s = .ok .plain { u with
        eip := (u.placeValue s.vWidth p).setWidth 32, prefetch := [] } := by
      rw [jumpRm, M.bind_ok (readRm_ok c hl), M.bind_ok (setEip_ok (by rw [h.segs]; exact hle))]
      rfl
    have hgo := Goes.intro (i := .jmpRmv rm) rfl c h hb rfl
    rwa [h.regs, h.flags] at hgo
  · have h := Touched.of_locate hl
    refine runInstr_exn ?_
    rw [jumpRm, M.bind_ok (readRm_ok c hl), M.bind_error (setEip_raises (by rw [h.segs]; exact hlt))]
  · obtain ⟨h, body, he, hb⟩ := callForm_runs c hi
    exact he.trans (runInstr_exn (hb.trans (callNear_out h hlt)))
  · obtain ⟨h, body, he, hb⟩ := callForm_runs c hi
    obtain ⟨hn, hd⟩ := segLocate_bytes (bytes_le _) hl
    have hv := h.trans (Touched.of_segLocate hl)
    rw [callNear_in (h.stays c) h hle hl, v.putBytes_eq, BitVec.toNat_setWidth] at hb
    have hlt : s.nextEip.toNat % 2 ^ s.vWidth.bits < 256 ^ ps.length := by
      rw [hn, ← BitVec.toNat_setWidth]
      exact toNat_lt_pow _ (s.nextEip.setWidth s.vWidth.bits)
    exact Leaves.written he (by decide) c hv hd hlt hb rfl
      (by rw [← hv.flags]; rfl)
  · rw [← popped_target hl]
    rw [← popped_target hl] at hle
    have hb := returnNear_in c hl hle more
    have h := Touched.of_segLocate hl
    have hgo := Goes.intro (retForm_runs hi) c h hb rfl
    rwa [h.flags] at hgo
  · rw [← popped_target hl] at hlt
    exact (retForm_runs hi).trans (runInstr_exn (returnNear_out c hl hlt more))

end Sys2Proof.Machine

/-! System registers: obligations O41, O44 and O45. -/

namespace Sys2Proof.Machine

/-! Descriptor table registers. -/

/-- `SetsIn` for a simple meaning that ends in `v`. -/
theorem SetsIn.simple {s s' u v : State} {i : Instr} {body : M Unit} {g : Regs} {f : Flags}
    (he : exec i s = runSimple body s) (hb : body s = .ok () v) (ht : s.flags.tf = s'.flags.tf)
    (hm : s'.closed = true) (h : Touched s' u)
    (hv : v = { u with regs := v.regs, flags := v.flags, prefetch := v.prefetch, free := v.free,
                       dec := { u.dec with held := v.dec.held } })
    (hg : v.regs = g) (hf : v.flags = f) (hi : v.nextEip = s.nextEip) : SetsIn s i s' g f :=
  .of_leaves (Leaves.simple he hb ht hm h (by rw [hv]) (fun a _ => by rw [hv]) rfl hg (by rw [hf]) hi)

theorem Touched.of_locateEa {ea : EA} {k n : Nat} {write : Bool} {s u : State} {ps : List Dword}
    (hl : locateEa ea k n write s = .ok ps u) : Touched s u := (Touches.locateEa ea k n write s).1 _ _ hl

/-- The base that SGDT and SIDT store: with OS = 16 its last byte is free. -/
def State.storedBase (s : State) (k : Nat) (t : TableReg) : Dword :=
  if s.os32 then t.base else (Config.freeValue k).setWidth 8 ++ t.base.extractLsb' 0 24

theorem State.storedBase_low (s : State) (k : Nat) (t : TableReg) :
    (s.storedBase k t).setWidth 24 = t.base.setWidth 24 := by
  unfold storedBase
  split
  · rfl
  · apply BitVec.eq_of_toNat_eq
    simp only [BitVec.toNat_setWidth, toNat_append_eq, BitVec.extractLsb'_toNat, Nat.shiftRight_zero]
    omega

theorem storeTable_ok {s u v : State} {ea : EA} {p1 p2 : List Dword} (c : s.closed = true)
    (h1 : locateEa ea 0 2 true s = .ok p1 u) (h2 : locateEa ea 2 4 true u = .ok p2 v) (t : TableReg) :
    storeTable t ea s = .ok () ((({ v with free := v.free + 1 } : State).putBytes p1 t.limit.toNat).putBytes p2
      (s.storedBase v.free t).toNat) := by
  have hv := ((Touched.of_locateEa h1).trans (Touched.of_locateEa h2)).stays c
  rw [storeTable, M.get_bind_apply, M.bind_ok h1, M.bind_ok h2, draw_bind_apply,
    M.bind_ok (memWrite_closed (by exact hv) p1 _)]
  exact memWrite_closed (State.closed_putBytes (s := { v with free := v.free + 1 }) p1 _ hv) p2 _

theorem readTable_ok {s u v : State} {ea : EA} {p1 p2 : List Dword} (c : s.closed = true)
    (h1 : locateEa ea 0 2 false s = .ok p1 u) (h2 : locateEa ea 2 4 false u = .ok p2 v) :
    readTable ea s = .ok
      { base := if s.os32 then BitVec.ofNat 32 (v.mem.readAt p2) else BitVec.ofNat 32 (v.mem.readAt p2) &&& 0x00FFFFFF
        limit := BitVec.ofNat 16 (v.mem.readAt p1) } v := by
  have hv := ((Touched.of_locateEa h1).trans (Touched.of_locateEa h2)).stays c
  have parts : readParts ea 2 4 s = .ok (v.mem.readAt p1, v.mem.readAt p2) v := by
    rw [readParts, M.bind_ok h1, M.bind_ok h2, M.bind_ok (memRead_closed hv p1), M.bind_ok (memRead_closed hv p2)]
    rfl
  rw [readTable, M.get_bind_apply, M.bind_ok parts]
  rfl

/-- SGDT and SIDT: six bytes written. -/
theorem storeTable_leaves {s u v : State} {i : Instr} {ea : EA} {p1 p2 : List Dword} {t : TableReg}
    (c : s.closed = true) (he : exec i s = runSimple (storeTable t ea) s)
    (h1 : locateEa ea 0 2 true s = .ok p1 u) (h2 : locateEa ea 2 4 true u = .ok p2 v) :
    ∃ r, exec i s = .next r ∧ After s r s.regs s.flags.settled s.nextEip (p1 ++ p2) ∧
      r.mem = (v.mem.writeAt p1 t.limit.toNat).writeAt p2 (s.storedBase v.free t).toNat := by
  have h := (Touched.of_locateEa h1).trans (Touched.of_locateEa h2)
  have hb := storeTable_ok c h1 h2 t
  rw [State.putBytes_eq, State.putBytes_eq] at hb
  refine ⟨_, he.trans (runSimple_ok hb), ?_, State.finish_mem ..⟩
  rw [← h.regs, ← h.flags, ← h.nextEip]
  refine After.plain c h rfl fun a ha => ?_
  obtain ⟨ha1, ha2⟩ := not_or.1 (fun hm => ha (List.mem_append.2 hm))
  exact (Memory.read_writeAt_other p2 _ ha2).trans (Memory.read_writeAt_other p1 _ ha1)

/-- Settles O41. -/
theorem tableRegistersLoadAndStore : Obligations.TableRegistersLoadAndStore := by
  intro s u v ea c
  refine ⟨fun i table hi p1 p2 h1 h2 => ?_, fun hr p1 p2 h1 h2 => ?_⟩
  · have he : exec i s = runSimple (storeTable table ea) s := by
      simp only [List.mem_cons, List.not_mem_nil, or_false, Prod.mk.injEq] at hi
      obtain ⟨rfl, rfl⟩ | ⟨rfl, rfl⟩ := hi <;> rfl
    obtain ⟨r, hx, ha, hm⟩ := storeTable_leaves c he h1 h2
    exact ⟨r, s.storedBase v.free table, fun h => if_pos h, s.storedBase_low _ _, hx, ha, hm⟩
  · have h := (Touched.of_locateEa h1).trans (Touched.of_locateEa h2)
    have read := readTable_ok c h1 h2
    obtain ⟨m, q, l, n, b, k, rfl⟩ := h.form c
    refine ⟨?_, ?_⟩
    · have hb := (M.bind_ok (requirePrivileged_ok hr) fun _ => readTable ea >>= fun t =>
        modify fun s : State => { s with gdtr := t }).trans (M.bind_ok read _)
      exact SetsIn.simple rfl hb rfl (by exact c) (h.over c s.segs s.cpl s.cr2 _ s.idtr s.ldtr s.tr s.inhibit
        s.nmiInService s.ioLog) rfl rfl rfl rfl
    · have hb := (M.bind_ok (requirePrivileged_ok hr) fun _ => readTable ea >>= fun t =>
        modify fun s : State => { s with idtr := t }).trans (M.bind_ok read _)
      exact SetsIn.simple rfl hb rfl (by exact c) (h.over c s.segs s.cpl s.cr2 s.gdtr _ s.ldtr s.tr s.inhibit
        s.nmiInService s.ioLog) rfl rfl rfl rfl

/-! Registers for control, debugging and test. -/

theorem withFree_apply (mask v : Dword) (s : State) :
    withFree mask v s = .ok ((v &&& mask) ||| (Config.freeValue s.free).setWidth 32 &&& ~~~mask)
      { s with free := s.free + 1 } := rfl

/-- A register with its reserved bits free shows its defined bits. -/
theorem shows_withFree (v mask any : Dword) : Shows ((v &&& mask) ||| (any &&& ~~~mask)) v mask := by
  unfold Shows
  ext k
  simp only [BitVec.getElem_and, BitVec.getElem_or, BitVec.getElem_not]
  cases mask[k] <;> simp

theorem requireDebug_ok {s : State} (h : s.mayRun) (hg : s.dr7.getLsbD 13 = false) : requireDebug s = .ok () s := by
  rw [requireDebug, M.bind_ok (requirePrivileged_ok h), M.get_bind_apply, hg]
  rfl

theorem requireDebug_raises {s : State} (h : s.mayRun) (hg : s.dr7.getLsbD 13 = true) :
    requireDebug s = .error (.exn .db) s := by
  rw [requireDebug, M.bind_ok (requirePrivileged_ok h), M.get_bind_apply, hg]
  rfl

/-- How a MOV from a special register ends, its contents `x` read. -/
def showSpecial (r : Reg) (x : Dword) : M Unit := do
  setReg .w32 r x
  freeStatus

theorem showSpecial_sets {s : State} {i : Instr} {body : M Unit} {r : Reg} {x : Dword} {k : Nat} (c : s.closed = true)
    (he : exec i s = runSimple body s) (hb : body s = showSpecial r x { s with free := k }) :
    ∃ any, Sets s i (s.regs.write .w32 r x) (s.flags.freeStatus any) :=
  ⟨_, Sets.intro_eq he c (.refl s) (hb.trans ((M.bind_ok rfl _).trans (freeStatus_apply _))) rfl rfl rfl⟩

theorem specialRead_runs {s : State} {i : Instr} {r : Reg} {v mask : Dword} (hr : s.mayRun)
    (h : SpecialRead s i r v mask) : ∃ body x k, Shows x v mask ∧ exec i s = runSimple body s ∧
      body s = showSpecial r x { s with free := k } := by
  have priv := requirePrivileged_ok hr
  cases h
  case cr0 => exact ⟨moveFromControl r 0, _, _, shows_withFree _ _ _, rfl, M.bind_ok priv _⟩
  case cr2 => exact ⟨moveFromControl r 2, _, _, rfl, rfl, M.bind_ok priv _⟩
  case cr3 => exact ⟨moveFromControl r 3, _, _, shows_withFree _ _ _, rfl, M.bind_ok priv _⟩
  case dr0 h => exact ⟨moveFromDebug r 0, _, _, rfl, rfl, M.bind_ok (requireDebug_ok hr h) _⟩
  case dr1 h => exact ⟨moveFromDebug r 1, _, _, rfl, rfl, M.bind_ok (requireDebug_ok hr h) _⟩
  case dr2 h => exact ⟨moveFromDebug r 2, _, _, rfl, rfl, M.bind_ok (requireDebug_ok hr h) _⟩
  case dr3 h => exact ⟨moveFromDebug r 3, _, _, rfl, rfl, M.bind_ok (requireDebug_ok hr h) _⟩
  case dr6 h => exact ⟨moveFromDebug r 6, _, _, shows_withFree _ _ _, rfl, M.bind_ok (requireDebug_ok hr h) _⟩
  case dr7 h => exact ⟨moveFromDebug r 7, _, _, shows_withFree _ _ _, rfl, M.bind_ok (requireDebug_ok hr h) _⟩
  case tr6 => exact ⟨moveFromTest r 6, _, _, shows_withFree _ _ _, rfl, M.bind_ok priv _⟩
  case tr7 => exact ⟨moveFromTest r 7, _, _, shows_withFree _ _ _, rfl, M.bind_ok priv _⟩

/-- A MOV to a special register: the state written, then free status flags. -/
theorem specialWrite_runs {s s' : State} {i : Instr} {r : Reg} (hr : s.mayRun)
    (h : SpecialWrite s (s.regs.get r) r i s') :
    ∃ body, exec i s = runSimple body s ∧ body s = freeStatus s' := by
  have priv := requirePrivileged_ok hr
  have get : getReg .w32 r s = .ok (s.regs.get r) s := getReg_apply ..
  cases h
  case cr0 h =>
    exact ⟨moveToControl 0 r, rfl,
      (M.bind_ok priv _).trans ((M.bind_ok get _).trans (M.bind_ok (writeControl_zero h s) _))⟩
  case cr2 => exact ⟨moveToControl 2 r, rfl, (M.bind_ok priv _).trans ((M.bind_ok get _).trans rfl)⟩
  case cr3 => exact ⟨moveToControl 3 r, rfl, (M.bind_ok priv _).trans ((M.bind_ok get _).trans rfl)⟩
  case dr0 h => exact ⟨moveToDebug 0 r, rfl, (M.bind_ok (requireDebug_ok hr h) _).trans ((M.bind_ok get _).trans rfl)⟩
  case dr1 h => exact ⟨moveToDebug 1 r, rfl, (M.bind_ok (requireDebug_ok hr h) _).trans ((M.bind_ok get _).trans rfl)⟩
  case dr2 h => exact ⟨moveToDebug 2 r, rfl, (M.bind_ok (requireDebug_ok hr h) _).trans ((M.bind_ok get _).trans rfl)⟩
  case dr3 h => exact ⟨moveToDebug 3 r, rfl, (M.bind_ok (requireDebug_ok hr h) _).trans ((M.bind_ok get _).trans rfl)⟩
  case dr6 h => exact ⟨moveToDebug 6 r, rfl, (M.bind_ok (requireDebug_ok hr h) _).trans ((M.bind_ok get _).trans rfl)⟩
  case dr7 h => exact ⟨moveToDebug 7 r, rfl, (M.bind_ok (requireDebug_ok hr h) _).trans ((M.bind_ok get _).trans rfl)⟩
  case tr7 => exact ⟨moveToTest 7 r, rfl, (M.bind_ok priv _).trans ((M.bind_ok get _).trans rfl)⟩

/-- What a MOV to a special register writes is none of the general registers, the flags, EIP, memory, or the inputs of
the instruction. -/
theorem specialWrite_keeps {s s' : State} {i : Instr} {r : Reg} {v : Dword} (h : SpecialWrite s v r i s') :
    s'.regs = s.regs ∧ s'.flags = s.flags ∧ s'.nextEip = s.nextEip ∧ s'.closed = s.closed := by
  cases h <;> exact ⟨rfl, rfl, rfl, rfl⟩

/-- A meaning that ends with free status flags in `s'`. -/
theorem SetsIn.freeStatus {s s' : State} {i : Instr} {body : M Unit} (c : s'.closed = true)
    (he : exec i s = runSimple body s) (hb : body s = Machine.freeStatus s') (hg : s'.regs = s.regs)
    (hf : s'.flags = s.flags) (hi : s'.nextEip = s.nextEip) :
    ∃ any, SetsIn s i s' s.regs (s.flags.freeStatus any) := by
  exact ⟨(Config.freeValue s'.free).setWidth 6, SetsIn.simple he (hb.trans (freeStatus_apply s')) (by rw [hf]) c
    (.refl s') rfl hg (by rw [← hf]) hi⟩

/-- A meaning that takes an exception after a check that passes. -/
theorem runSimple_exn_of_check {s : State} {e : Exn} {check : M Unit} {rest : M Unit} (hc : check s = .ok () s)
    (hb : rest s = .error (.exn e) s) : runSimple (check >>= fun _ => rest) s = takeExn s s e :=
  runSimple_exn ((M.bind_ok hc _).trans hb)

/-- Control registers 1 and 4 to 7 do not exist. -/
theorem control_missing {n : BitVec 3} (h : n ∉ ([0, 2, 3] : List (BitVec 3))) (s : State) :
    readControl n s = .error (.exn .ud) s ∧ ∀ v, writeControl n v s = .error (.exn .ud) s := by
  have cases : ∀ n : BitVec 3, n = 0 ∨ n = 1 ∨ n = 2 ∨ n = 3 ∨ n = 4 ∨ n = 5 ∨ n = 6 ∨ n = 7 := by decide
  rcases cases n with rfl | rfl | rfl | rfl | rfl | rfl | rfl | rfl
  case inl | inr.inr.inl | inr.inr.inr.inl => exact absurd h (by decide)
  all_goals exact ⟨rfl, fun _ => rfl⟩

/-- Test registers 0 to 5 do not exist. -/
theorem test_missing {n : BitVec 3} (h : n ∉ ([6, 7] : List (BitVec 3))) (s : State) :
    readTest n s = .error (.exn .ud) s ∧ ∀ v, writeTest n v s = .error (.exn .ud) s := by
  have cases : ∀ n : BitVec 3, n = 6 ∨ n = 7 ∨ n = 0 ∨ n = 1 ∨ n = 2 ∨ n = 3 ∨ n = 4 ∨ n = 5 := by decide
  rcases cases n with rfl | rfl | rfl | rfl | rfl | rfl | rfl | rfl
  case inl | inr.inl => exact absurd h (by decide)
  all_goals exact ⟨rfl, fun _ => rfl⟩

/-- DR4 and DR5 are refused. -/
theorem debug_reserved {n : BitVec 3} (h : n = 4 ∨ n = 5) (s : State) :
    readDebug n s = .error (.refused .reservedDebugRegister) s ∧
    ∀ v, writeDebug n v s = .error (.refused .reservedDebugRegister) s := by
  rcases h with rfl | rfl <;> exact ⟨rfl, fun _ => rfl⟩

theorem runSimple_refused {s u : State} {body : M Unit} {r : Refusal} (h : body s = .error (.refused r) u) :
    runSimple body s = .refused r := by
  rw [runSimple, runInstr, M.bind_error h]
  rfl

/-- Settles O44. -/
theorem specialRegistersReadAndWrite : Obligations.SpecialRegistersReadAndWrite := by
  intro s c hr
  have priv := requirePrivileged_ok hr
  refine ⟨fun i r v mask h => ?_, fun i r s' h => ?_, fun r => ?_, fun r n hn => ⟨?_, ?_⟩, fun r n hn => ⟨?_, ?_⟩,
    fun r n hg => ⟨?_, ?_⟩, fun r n hg hn => ⟨?_, ?_⟩, fun r h31 h0 => ?_⟩
  · obtain ⟨body, x, k, hx, he, hb⟩ := specialRead_runs hr h
    obtain ⟨any, hs⟩ := showSpecial_sets c he hb
    exact ⟨x, any, hx, hs⟩
  · obtain ⟨body, he, hb⟩ := specialWrite_runs hr h
    obtain ⟨hg, hf, hi, hc⟩ := specialWrite_keeps h
    exact SetsIn.freeStatus (hc.trans c) he hb hg hf hi
  · obtain ⟨body, he, hb⟩ := specialWrite_runs hr (.cr3 (s := s) (r := r))
    exact ⟨_, he.trans (runSimple_ok (hb.trans (freeStatus_apply _))), State.finish_tlb ..⟩
  · exact runSimple_exn_of_check priv (M.bind_error (control_missing hn s).1 _)
  · exact runSimple_exn_of_check priv
      ((M.bind_ok (getReg_apply ..) _).trans (M.bind_error ((control_missing hn s).2 _) _))
  · exact runSimple_exn_of_check priv (M.bind_error (test_missing hn s).1 _)
  · exact runSimple_exn_of_check priv ((M.bind_ok (getReg_apply ..) _).trans (M.bind_error ((test_missing hn s).2 _) _))
  · exact runSimple_exn (M.bind_error (requireDebug_raises hr hg) _)
  · exact runSimple_exn (M.bind_error (requireDebug_raises hr hg) _)
  · exact runSimple_refused ((M.bind_ok (requireDebug_ok hr hg) _).trans (M.bind_error (debug_reserved hn s).1 _))
  · exact runSimple_refused ((M.bind_ok (requireDebug_ok hr hg) _).trans
      ((M.bind_ok (getReg_apply ..) _).trans (M.bind_error ((debug_reserved hn s).2 _) _)))
  · have hw : writeControl 0 (s.regs.get r) = refuse .pagingWithoutProtection := if_pos (by rw [h31, h0]; rfl)
    exact runSimple_refused ((M.bind_ok priv _).trans ((M.bind_ok (getReg_apply ..) _).trans
      (M.bind_error (congrFun hw s) _)))

/-! The machine status word and TLB commands. -/

/-- The same accesses over a state with another CR0, paging as before. -/
theorem Touched.overCr0 {s u : State} (h : Touched s u) (c : s.closed = true) {x : Cr0} (hp : x.pg = s.cr0.pg) :
    Touched { s with cr0 := x } { u with cr0 := x } where
  rest := by rw [h.rest]
  wf := h.wf
  tlb := h.tlb
  closed _ := h.closed c
  bytes _ a := by rw [show ({ s with cr0 := x } : State).cr0.pg = s.cr0.pg from hp]; exact h.bytes c a
  direct _ hq := congrArg (fun y : State => { y with cr0 := x }) (h.direct c (hp.symm.trans hq))

theorem pairBit_apply (x y : Bool) (s : State) :
    ∃ b k, pairBit x y s = .ok b { s with free := k } ∧ (x ≠ y → b = x) := by
  unfold pairBit
  by_cases h : x = y
  · exact ⟨_, _, by rw [if_neg (by simp [h]), drawBool_apply], fun hn => absurd h hn⟩
  · exact ⟨x, s.free, by rw [if_pos (by simp [h])]; rfl, fun _ => rfl⟩

/-- The TLB write command. -/
theorem tlbWrite_ok (v : Dword) (s : State) :
    let page := v.extractLsb' 12 20
    ∃ d u w, ∃ way < 4, ∃ k,
      (v.getLsbD 10 ≠ v.getLsbD 9 → d = v.getLsbD 10) ∧ (v.getLsbD 8 ≠ v.getLsbD 7 → u = v.getLsbD 8) ∧
      (v.getLsbD 6 ≠ v.getLsbD 5 → w = v.getLsbD 6) ∧
      (s.tr7.getLsbD 4 = true → way = (s.tr7.extractLsb' 2 2).toNat) ∧
      tlbWrite v s = .ok () { s with
        free := k
        tlb := s.tlb.set (4 * (page.extractLsb' 0 3).toNat + way) (if v.getLsbD 11 then
          some { tag := page, phys := s.tr7.extractLsb' 12 20, d := d, u := u, w := w } else none) } := by
  intro page
  obtain ⟨d, k1, e1, hd⟩ := pairBit_apply (v.getLsbD 10) (v.getLsbD 9) s
  obtain ⟨u, k2, e2, hu⟩ := pairBit_apply (v.getLsbD 8) (v.getLsbD 7) { s with free := k1 }
  obtain ⟨w, k3, e3, hw⟩ := pairBit_apply (v.getLsbD 6) (v.getLsbD 5) { s with free := k2 }
  let way : BitVec 2 := if s.tr7.getLsbD 4 then s.tr7.extractLsb' 2 2 else (Config.freeValue k3).setWidth 2
  refine ⟨d, u, w, way.toNat, way.isLt, k3 + 1, hd, hu, hw, fun h => congrArg BitVec.toNat (if_pos h), ?_⟩
  rw [tlbWrite, M.get_bind_apply, M.bind_ok e1, M.bind_ok e2, M.bind_ok e3, draw_bind_apply]
  rfl

/-- A hit is an entry of the page in a way below 4. -/
theorem lookupHits_tag {tlb : List (Option TlbEntry)} {v : Dword} {k : Nat} {e : TlbEntry}
    (h : (k, e) ∈ lookupHits tlb v) : k < 4 ∧ e.tag = v.extractLsb' 12 20 := by
  obtain ⟨j, hj, hb⟩ := List.mem_filterMap.1 h
  obtain ⟨t, -, ht⟩ := Option.bind_eq_some_iff.1 hb
  split at ht
  case isFalse => cases ht
  case isTrue hm =>
    cases ht
    refine ⟨List.mem_range.1 hj, ?_⟩
    simp only [lookupMatches, Option.any_some, Bool.and_eq_true, beq_iff_eq] at hm
    exact hm.1.1.1

theorem hitTr6_bits (e : TlbEntry) :
    (hitTr6 e).extractLsb' 12 20 = e.tag ∧ (hitTr6 e).getLsbD 11 = true ∧ (hitTr6 e).getLsbD 10 = e.d ∧
    (hitTr6 e).getLsbD 9 = !e.d ∧ (hitTr6 e).getLsbD 8 = e.u ∧ (hitTr6 e).getLsbD 7 = !e.u ∧
    (hitTr6 e).getLsbD 6 = e.w ∧ (hitTr6 e).getLsbD 5 = !e.w := by
  refine ⟨?_, ?_, ?_, ?_, ?_, ?_, ?_, ?_⟩
  · ext k hk
    simp [hitTr6, BitVec.getLsbD_append]
    grind
  all_goals
    simp only [hitTr6, BitVec.getLsbD_append, BitVec.getLsbD_ofBool]
    simp

theorem hitTr7_bits (e : TlbEntry) {k : Nat} (h : k < 4) :
    (hitTr7 e k).extractLsb' 12 20 = e.phys ∧ (hitTr7 e k).getLsbD 4 = true ∧
    ((hitTr7 e k).extractLsb' 2 2).toNat = k := by
  refine ⟨?_, ?_, ?_⟩
  · ext k hk
    simp [hitTr7]
    grind
  · simp only [hitTr7, BitVec.getLsbD_append]
    simp
  · rw [BitVec.extractLsb'_toNat, hitTr7, toNat_append_eq, toNat_append_eq, BitVec.toNat_ofNat,
      Nat.shiftRight_eq_div_pow]
    have : (0 : BitVec 2).toNat = 0 := rfl
    omega

theorem writeTest_tr6_eq (v : Dword) (s : State) :
    writeTest 6 v s = (if s.cr0.pg then refuse .tlbTestWhilePaging else do
      modify fun u : State => { u with tr6 := v &&& tr6Mask }
      if v.getLsbD 0 then tlbLookup v else tlbWrite v) s := rfl

/-- MOV TR6 runs the command of its C bit, with paging off. -/
theorem writeTest_tr6 {s : State} (hp : s.cr0.pg = false) (v : Dword) :
    writeTest 6 v s = (if v.getLsbD 0 then tlbLookup v else tlbWrite v) { s with tr6 := v &&& tr6Mask } := by
  rw [writeTest_tr6_eq, hp]
  rfl

theorem moveToTest_ok {s t : State} (hr : s.mayRun) {n : BitVec 3} {r : Reg}
    (h : writeTest n (s.regs.get r) s = .ok () t) : moveToTest n r s = freeStatus t :=
  (M.bind_ok (requirePrivileged_ok hr) _).trans ((M.bind_ok (getReg_apply ..) _).trans (M.bind_ok h _))

theorem moveToTest_refused {s t : State} (hr : s.mayRun) {n : BitVec 3} {r : Reg} {x : Refusal}
    (h : writeTest n (s.regs.get r) s = .error (.refused x) t) : exec (.movTrR32 n r) s = .refused x :=
  runSimple_refused ((M.bind_ok (requirePrivileged_ok hr) _).trans ((M.bind_ok (getReg_apply ..) _).trans
    (M.bind_error h _)))

theorem tlbLookup_apply (v : Dword) (s : State) : tlbLookup v s =
    match lookupHits s.tlb v with
    | [] => .ok () { s with
        tr6 := (Config.freeValue s.free).setWidth 32 &&& tr6Mask
        tr7 := (Config.freeValue (s.free + 1)).setWidth 32 &&& tr7Mask &&& ~~~(0x10 : Dword)
        free := s.free + 2 }
    | [(k, t)] => .ok () { s with tr6 := hitTr6 t, tr7 := hitTr7 t k }
    | _ => .error (.refused .tlbLookupAmbiguous) s := by
  rw [tlbLookup, M.get_bind_apply]
  rcases lookupHits s.tlb v with _ | ⟨x, _ | ⟨y, l⟩⟩ <;> rfl

/-- Settles O45. -/
theorem machineStatusWordMoves : Obligations.MachineStatusWordMoves := by
  intro s c hr
  have priv := requirePrivileged_ok hr
  refine ⟨fun rm p u hl => ?_, ?_, fun hp r => ?_, fun hp r => ⟨fun h0 => ?_, fun h0 => ⟨fun hh => ?_, fun k e hh => ?_,
    fun hh => ?_⟩⟩⟩
  · have h := Touched.of_locate hl
    have read := readRm_ok c hl
    obtain ⟨m, q, l, n, b, k, rfl⟩ := h.form c
    have hb := (M.bind_ok priv fun _ => readRm .w16 rm >>= fun v : Word => modify fun s : State =>
      { s with cr0 := { s.cr0 with pe := s.cr0.pe || v.getLsbD 0, mp := v.getLsbD 1, em := v.getLsbD 2,
                                   ts := v.getLsbD 3 } }).trans (M.bind_ok read _)
    exact SetsIn.simple rfl hb rfl (by exact c) (h.overCr0 c rfl) rfl rfl rfl rfl
  · let t : State := { s with cr0 := { s.cr0 with ts := false } }
    have hb : clearTs s = .ok () t := by
      rw [clearTs, M.bind_ok priv]
      rfl
    exact SetsIn.simple rfl hb rfl (by exact c) (.refl t) rfl rfl rfl rfl
  · have hw : writeTest 6 (s.regs.get r) s = .error (.refused .tlbTestWhilePaging) s := by
      rw [writeTest_tr6_eq, hp]
      rfl
    exact moveToTest_refused hr hw
  · obtain ⟨d, u, w, way, hway, k, hd, hu, hw, hrep, he⟩ := tlbWrite_ok (s.regs.get r)
      { s with tr6 := s.regs.get r &&& tr6Mask }
    have hb := (writeTest_tr6 hp (s.regs.get r)).trans ((congrFun (if_neg (by rw [h0]; decide)) _).trans he)
    refine ⟨(Config.freeValue k).setWidth 6, d, u, w, way, hway, hd, hu, hw, hrep, ?_⟩
    exact SetsIn.simple rfl ((moveToTest_ok hr hb).trans (freeStatus_apply _)) rfl (by exact c) (.refl _)
      rfl rfl rfl rfl
  · have hb := (writeTest_tr6 hp (s.regs.get r)).trans ((congrFun (if_pos h0) _).trans (tlbLookup_apply ..))
    rw [hh] at hb
    have hm : ∀ x : Dword, x &&& tr7Mask &&& ~~~(0x10 : Dword) = x &&& tr7Mask &&& ~~~(0x10 : Dword) &&& 0xFFFFF01C :=
      fun x => by
        rw [BitVec.and_assoc, BitVec.and_assoc]
        rfl
    rw [hm] at hb
    refine ⟨_, _, _, ?_, SetsIn.simple rfl ((moveToTest_ok hr hb).trans (freeStatus_apply _)) rfl (by exact c) (.refl _)
      rfl rfl rfl rfl⟩
    rw [BitVec.getLsbD_and, show (~~~(0x10 : Dword)).getLsbD 4 = false from rfl, Bool.and_false]
  · have hb := (writeTest_tr6 hp (s.regs.get r)).trans ((congrFun (if_pos h0) _).trans (tlbLookup_apply ..))
    rw [hh] at hb
    obtain ⟨hk, ht⟩ := lookupHits_tag (tlb := s.tlb) (v := s.regs.get r) (hh ▸ List.mem_singleton.2 rfl)
    obtain ⟨t6, v6, d6, d6', u6, u6', w6, w6'⟩ := hitTr6_bits e
    obtain ⟨p7, l7, r7⟩ := hitTr7_bits e hk
    exact ⟨(Config.freeValue s.free).setWidth 6, hitTr6 e, hitTr7 e k, t6.trans ht, v6, d6, d6', u6, u6', w6, w6', p7,
      l7, r7, SetsIn.simple rfl ((moveToTest_ok hr hb).trans (freeStatus_apply _)) rfl (by exact c) (.refl _)
        rfl rfl rfl rfl⟩
  · have hb : writeTest 6 (s.regs.get r) s =
        .error (.refused .tlbLookupAmbiguous) { s with tr6 := s.regs.get r &&& tr6Mask } := by
      rw [writeTest_tr6 hp, h0, if_pos rfl, tlbLookup_apply]
      dsimp only
      rcases hl : lookupHits s.tlb (s.regs.get r) with _ | ⟨x, _ | ⟨y, l⟩⟩
      case nil | cons.nil =>
        rw [hl] at hh
        exact absurd hh (by simp)
      case cons.cons => rfl
    exact moveToTest_refused hr hb

end Sys2Proof.Machine

/-! Descriptors found by selector: obligations O42 and O43. -/

namespace Sys2Proof.Machine

/-! Selectors. -/

theorem toNat_and_shifted {n : Nat} (x : BitVec n) (k : Nat) :
    (x &&& BitVec.allOnes n <<< k).toNat = 2 ^ k * (x.toNat / 2 ^ k) := by
  have hle : 2 ^ k * (x.toNat / 2 ^ k) ≤ x.toNat := Nat.mul_div_le _ _
  rw [← BitVec.shiftLeft_ushiftRight, BitVec.toNat_shiftLeft, BitVec.toNat_ushiftRight, Nat.shiftRight_eq_div_pow,
    Nat.shiftLeft_eq, Nat.mul_comm, Nat.mod_eq_of_lt (hle.trans_lt x.isLt)]

theorem selCode_toNat (sel : Word) : (selCode sel).toNat = 4 * (sel.toNat / 4) := toNat_and_shifted sel 2

/-- A selector is null exactly when it is 0 to 3. -/
theorem selNull_eq (sel : Word) : selNull sel = decide (sel.toNat < 4) := by
  rw [selNull, Bool.beq_eq_decide_eq, decide_eq_decide, ← BitVec.toNat_inj, selCode_toNat]
  have : (0 : Word).toNat = 0 := rfl
  omega

theorem selOffset_eq (sel : Word) : selOffset sel = BitVec.ofNat 32 (8 * (sel.toNat / 8)) := by
  have h : (sel &&& 0xFFF8).toNat = 8 * (sel.toNat / 8) := toNat_and_shifted sel 3
  apply BitVec.eq_of_toNat_eq
  rw [selOffset, BitVec.toNat_setWidth, h, BitVec.toNat_ofNat]

theorem selOffset_toNat (sel : Word) : (selOffset sel).toNat = 8 * (sel.toNat / 8) := by
  have := sel.isLt
  rw [selOffset_eq, BitVec.toNat_ofNat]
  omega

theorem selRpl_toNat (sel : Word) : (selRpl sel).toNat = sel.toNat % 4 := by
  rw [selRpl, BitVec.extractLsb'_toNat, Nat.shiftRight_zero]

theorem selRpl_eq (sel : Word) : selRpl sel = sel.setWidth 2 := by
  apply BitVec.eq_of_toNat_eq
  rw [selRpl_toNat, BitVec.toNat_setWidth]

/-- Finding a descriptor only touches the state. -/
theorem Touches.readDesc (a : Dword) : Touches (readDesc a) := (Touches.sysRead a 8).bind fun _ => .pure _

theorem Touches.descAddr (sel : Word) (f : Word → Exn) : Touches (descAddr sel f) :=
  Touches.get.bind fun _ => .ite ((Touches.require _ _).bind fun _ => .pure _)
    ((Touches.require _ _).bind fun _ => .pure _)

theorem Touches.findDesc (sel : Word) (f : Word → Exn) : Touches (findDesc sel f) :=
  (Touches.descAddr sel f).bind fun a => (Touches.readDesc a).bind fun _ => .pure _

theorem Touched.of_findDesc {sel : Word} {f : Word → Exn} {s u : State} {x : Dword × Descriptor}
    (h : findDesc sel f s = .ok x u) : Touched s u := (Touches.findDesc sel f s).1 _ _ h

theorem Touched.of_linLocate {lin : Dword} {n : Nat} {write sys : Bool} {s u : State} {ps : List Dword}
    (h : linLocate lin n write sys s = .ok ps u) : Touched s u := (Touches.linLocate lin n write sys s).1 _ _ h

theorem Touched.gdtr {s u : State} (h : Touched s u) : u.gdtr = s.gdtr := by rw [h.rest]
theorem Touched.ldtr {s u : State} (h : Touched s u) : u.ldtr = s.ldtr := by rw [h.rest]

/-! LLDT and LTR. -/

section
variable {s u v : State} {rm : Rm} {sel : Word} {a : Dword} {d : Descriptor}

theorem loadLdt_null (hp : s.protMode = true) (hr : s.mayRun) (read : readRm .w16 rm s = .ok sel u)
    (h : selNull sel = true) :
    loadLdt rm s = .ok () { u with ldtr := { u.ldtr with sel := sel, valid := false } } := by
  rw [loadLdt, M.bind_ok (requireProtected_ok hp), M.bind_ok (requirePrivileged_ok hr), M.bind_ok read, if_pos h]
  rfl

theorem loadLdt_local (hp : s.protMode = true) (hr : s.mayRun) (read : readRm .w16 rm s = .ok sel u)
    (h : selNull sel = false) (ht : selTi sel = true) : loadLdt rm s = .error (.exn (.gp (selCode sel))) u := by
  rw [loadLdt, M.bind_ok (requireProtected_ok hp), M.bind_ok (requirePrivileged_ok hr), M.bind_ok read, h,
    if_neg Bool.false_ne_true, require_fail (by rw [ht]; rfl)]

theorem loadLdt_wrong (hp : s.protMode = true) (hr : s.mayRun) (read : readRm .w16 rm s = .ok sel u)
    (h : selNull sel = false) (ht : selTi sel = false) (hd : findDesc sel .gp u = .ok (a, d) v)
    (hk : (!descS d && descType d == 2) = false) : loadLdt rm s = .error (.exn (.gp (selCode sel))) v := by
  rw [loadLdt, M.bind_ok (requireProtected_ok hp), M.bind_ok (requirePrivileged_ok hr), M.bind_ok read, h,
    if_neg Bool.false_ne_true, require_pass (by rw [ht]; rfl), M.bind_ok hd]
  dsimp only
  rw [require_fail hk]

theorem loadLdt_absent (hp : s.protMode = true) (hr : s.mayRun) (read : readRm .w16 rm s = .ok sel u)
    (h : selNull sel = false) (ht : selTi sel = false) (hd : findDesc sel .gp u = .ok (a, d) v)
    (hk : (!descS d && descType d == 2) = true) (hpr : descP d = false) :
    loadLdt rm s = .error (.exn (.np (selCode sel))) v := by
  rw [loadLdt, M.bind_ok (requireProtected_ok hp), M.bind_ok (requirePrivileged_ok hr), M.bind_ok read, h,
    if_neg Bool.false_ne_true, require_pass (by rw [ht]; rfl), M.bind_ok hd]
  dsimp only
  rw [require_pass hk, require_fail hpr]

theorem loadLdt_ok (hp : s.protMode = true) (hr : s.mayRun) (read : readRm .w16 rm s = .ok sel u)
    (h : selNull sel = false) (ht : selTi sel = false) (hd : findDesc sel .gp u = .ok (a, d) v)
    (hk : (!descS d && descType d == 2) = true) (hpr : descP d = true) : loadLdt rm s =
      .ok () { v with ldtr := { sel := sel, valid := true, base := descBase d, limit := descLimit d } } := by
  rw [loadLdt, M.bind_ok (requireProtected_ok hp), M.bind_ok (requirePrivileged_ok hr), M.bind_ok read, h,
    if_neg Bool.false_ne_true, require_pass (by rw [ht]; rfl), M.bind_ok hd]
  dsimp only
  rw [require_pass hk, require_pass hpr]
  rfl

theorem loadTask_null (hp : s.protMode = true) (hr : s.mayRun) (read : readRm .w16 rm s = .ok sel u)
    (h : selNull sel = true) : loadTask rm s = .error (.exn (.gp 0)) u := by
  rw [loadTask, M.bind_ok (requireProtected_ok hp), M.bind_ok (requirePrivileged_ok hr), M.bind_ok read,
    require_fail (by rw [h]; rfl)]

theorem loadTask_local (hp : s.protMode = true) (hr : s.mayRun) (read : readRm .w16 rm s = .ok sel u)
    (h : selNull sel = false) (ht : selTi sel = true) : loadTask rm s = .error (.exn (.gp (selCode sel))) u := by
  rw [loadTask, M.bind_ok (requireProtected_ok hp), M.bind_ok (requirePrivileged_ok hr), M.bind_ok read,
    require_pass (by rw [h]; rfl), require_fail (by rw [ht]; rfl)]

theorem loadTask_wrong (hp : s.protMode = true) (hr : s.mayRun) (read : readRm .w16 rm s = .ok sel u)
    (h : selNull sel = false) (ht : selTi sel = false) (hd : findDesc sel .gp u = .ok (a, d) v)
    (hk : (!descS d && (descType d == 1 || descType d == 9)) = false) :
    loadTask rm s = .error (.exn (.gp (selCode sel))) v := by
  rw [loadTask, M.bind_ok (requireProtected_ok hp), M.bind_ok (requirePrivileged_ok hr), M.bind_ok read,
    require_pass (by rw [h]; rfl), require_pass (by rw [ht]; rfl), M.bind_ok hd]
  dsimp only
  rw [require_fail hk]

theorem loadTask_absent (hp : s.protMode = true) (hr : s.mayRun) (read : readRm .w16 rm s = .ok sel u)
    (h : selNull sel = false) (ht : selTi sel = false) (hd : findDesc sel .gp u = .ok (a, d) v)
    (hk : (!descS d && (descType d == 1 || descType d == 9)) = true) (hpr : descP d = false) :
    loadTask rm s = .error (.exn (.np (selCode sel))) v := by
  rw [loadTask, M.bind_ok (requireProtected_ok hp), M.bind_ok (requirePrivileged_ok hr), M.bind_ok read,
    require_pass (by rw [h]; rfl), require_pass (by rw [ht]; rfl), M.bind_ok hd]
  dsimp only
  rw [require_pass hk, require_fail hpr]

theorem loadTask_ok {t : State} {ps : List Dword} (hp : s.protMode = true) (hr : s.mayRun)
    (read : readRm .w16 rm s = .ok sel u) (h : selNull sel = false) (ht : selTi sel = false)
    (hd : findDesc sel .gp u = .ok (a, d) v) (hk : (!descS d && (descType d == 1 || descType d == 9)) = true)
    (hpr : descP d = true) (hb : linLocate (a + 5) 1 true true v = .ok ps t) (c : t.closed = true) : loadTask rm s =
      .ok () { t.putBytes ps (BitVec.ofNat 8 (t.mem.readAt ps) ||| 2).toNat with
        tr := { sel := sel, base := descBase d, limit := descLimit d, is386 := descType d == 9 } } := by
  have busy : ∀ v : Nat, (BitVec.ofNat 8 v &&& ~~~(0 : Byte)) ||| 2 = BitVec.ofNat 8 v ||| 2 := fun v =>
    congrArg (· ||| (2 : Byte)) BitVec.and_allOnes
  rw [loadTask, M.bind_ok (requireProtected_ok hp), M.bind_ok (requirePrivileged_ok hr), M.bind_ok read,
    require_pass (by rw [h]; rfl), require_pass (by rw [ht]; rfl), M.bind_ok hd]
  dsimp only
  rw [require_pass hk, require_pass hpr,
    M.bind_ok hb, changeTypeByte, M.bind_ok (lockedModify_closed c ps _), busy]
  rfl

end

/-- Settles O42. -/
theorem ldtTaskRegistersLoadAndStore : Obligations.LdtTaskRegistersLoadAndStore := by
  intro s u rm p c hp hc hl
  have read := readRm_ok c hl
  have hr : s.mayRun := .inr hc
  have h := Touched.of_locate hl
  refine ⟨fun hn => ?_, fun hn ht => ?_, fun hn ht a d v hd => ?_⟩
  · have null : selNull (u.placeValue .w16 p) = true := by rw [selNull_eq, decide_eq_true hn]
    refine ⟨?_, runSimple_exn (loadTask_null hp hr read null)⟩
    have hb := loadLdt_null hp hr read null
    obtain ⟨m, q, l, n, b, k, rfl⟩ := h.form c
    exact SetsIn.simple rfl hb rfl (by exact c) (h.over c s.segs s.cpl s.cr2 s.gdtr s.idtr _ s.tr s.inhibit
      s.nmiInService s.ioLog) rfl rfl rfl rfl
  · have null : selNull (u.placeValue .w16 p) = false := by rw [selNull_eq, decide_eq_false (by omega)]
    exact ⟨runSimple_exn (loadLdt_local hp hr read null ht), runSimple_exn (loadTask_local hp hr read null ht)⟩
  · have null : selNull (u.placeValue .w16 p) = false := by rw [selNull_eq, decide_eq_false (by omega)]
    have hv := h.trans (Touched.of_findDesc hd)
    have isLdt : (!descS d && descType d == 2) = decide (descS d = false ∧ descType d = 2) := by
      rw [Bool.decide_and, Bool.beq_eq_decide_eq, Bool.decide_eq_false]
    have isTss : (!descS d && (descType d == 1 || descType d == 9)) =
        decide (descS d = false ∧ (descType d = 1 ∨ descType d = 9)) := by
      rw [Bool.decide_and, Bool.decide_or, Bool.beq_eq_decide_eq, Bool.beq_eq_decide_eq, Bool.decide_eq_false]
    refine ⟨fun hk => ?_, fun hk => ?_, fun hk hpr => ?_, fun hk hpr => ?_, fun hk hpr => ?_, fun hk hpr ps t hb => ?_⟩
    · exact runSimple_exn (loadLdt_wrong hp hr read null ht hd (isLdt.trans (decide_eq_false hk)))
    · exact runSimple_exn (loadTask_wrong hp hr read null ht hd (isTss.trans (decide_eq_false hk)))
    · exact runSimple_exn (loadLdt_absent hp hr read null ht hd (isLdt.trans (decide_eq_true hk)) hpr)
    · exact runSimple_exn (loadTask_absent hp hr read null ht hd (isTss.trans (decide_eq_true hk)) hpr)
    · have body := loadLdt_ok hp hr read null ht hd (isLdt.trans (decide_eq_true hk)) hpr
      obtain ⟨m, q, l, n, b, k, rfl⟩ := hv.form c
      exact SetsIn.simple rfl body rfl (by exact c) (hv.over c s.segs s.cpl s.cr2 s.gdtr s.idtr _ s.tr s.inhibit
        s.nmiInService s.ioLog) rfl rfl rfl rfl
    · have hw := hv.trans (Touched.of_linLocate hb)
      have body := loadTask_ok hp hr read null ht hd (isTss.trans (decide_eq_true hk)) hpr hb (hw.stays c)
      obtain ⟨hn1, hd1⟩ := linLocate_bytes (by decide) hb
      have hlt : (BitVec.ofNat 8 (t.mem.readAt ps) ||| 2).toNat < 256 ^ ps.length := by
        rw [hn1]
        exact (BitVec.ofNat 8 (t.mem.readAt ps) ||| 2).isLt
      rw [State.putBytes_eq] at body
      have hm := hw.wf (s.closed_wf c)
      obtain ⟨m, q, l, n, b, k, rfl⟩ := hw.form c
      exact Leaves.simple rfl body rfl (by exact c) (hw.over c s.segs s.cpl s.cr2 s.gdtr s.idtr s.ldtr _ s.inhibit
        s.nmiInService s.ioLog) rfl (fun x hx => Memory.read_writeAt_other ps _ hx)
        (Memory.readAt_writeAt_same hm hd1 hlt) rfl rfl rfl

/-! ARPL. -/

/-- Writing bytes looks at no flag. -/
theorem State.putBytes_withFlags (s : State) (f : Flags) (ps : List Dword) (v : Nat) :
    ({ s with flags := f } : State).putBytes ps v = { s.putBytes ps v with flags := f } := by
  induction ps generalizing v with
  | nil => rfl
  | cons p ps ih => rw [putBytes, putBytes, ih]; rfl

theorem State.withPlace_withFlags (s : State) (f : Flags) (w : Width) (p : Place) (v : BitVec w.bits) :
    ({ s with flags := f } : State).withPlace w p v = { s.withPlace w p v with flags := f } := by
  cases p with
  | reg r => rfl
  | mem ps => exact s.putBytes_withFlags f ps _

theorem setZf_apply (z : Bool) (s : State) : setZf z s = .ok () { s with flags := { s.flags with zf := z } } := rfl

/-- ARPL: the operand is adjusted where its RPL is below that of the register. -/
theorem adjustRpl_apply {s u : State} {rm : Rm} {r : Reg} {p : Place} (c : s.closed = true) (hp : s.protMode = true)
    (hl : locate .w16 rm true s = .ok p u) :
    let d : Word := u.placeValue .w16 p
    let v : Word := s.regs.read .w16 r
    adjustRpl rm r s =
      if selRpl d < selRpl v then
        .ok () (({ u with flags := { u.flags with zf := true } } : State).withPlace .w16 p
          (selCode d ||| (selRpl v).setWidth 16))
      else .ok () { u with flags := { u.flags with zf := false } } := by
  have hu := closed_of_locate c hl
  have hg : getReg .w16 r u = .ok (s.regs.read .w16 r) u := by rw [getReg_apply, (Touched.of_locate hl).regs]
  rw [adjustRpl, M.bind_ok (requireProtected_ok hp), M.bind_ok hl, M.bind_ok (getPlace_closed hu .w16 p), M.bind_ok hg]
  dsimp only
  split
  · have hf : (u.withPlace .w16 p
        (selCode (u.placeValue .w16 p) ||| (selRpl (s.regs.read .w16 r)).setWidth 16)).flags = u.flags := by
      rw [State.withPlace_eq]
    rw [M.bind_ok (putPlace_closed hu .w16 p _), u.withPlace_withFlags { u.flags with zf := true }]
    exact (setZf_apply true _).trans (by rw [hf])
  · exact setZf_apply false u

/-! VERR, VERW, LAR and LSL. -/

theorem visible_none {s : State} {sel : Word} (h : sel.toNat < 4 ∨ s.inTable sel = false) :
    visible sel s = .ok none s := by
  rw [visible, M.get_bind_apply, if_pos]
  · rfl
  · rw [selNull_eq]
    rcases h with h | h <;> simp [h]

theorem visible_some {s t : State} {sel : Word} {x : Nat} (hn : 4 ≤ sel.toNat) (h : s.inTable sel = true)
    (hr : sysRead ((if selTi sel then s.ldtr.base else s.gdtr.base) + selOffset sel) 8 s = .ok x t) :
    visible sel s = .ok
      (if descReachable (BitVec.ofNat 64 x) s.cpl (selRpl sel) then some (BitVec.ofNat 64 x) else none) t := by
  have hd : readDesc ((if selTi sel then s.ldtr.base else s.gdtr.base) + selOffset sel) s =
      .ok (BitVec.ofNat 64 x) t := by
    rw [readDesc, M.bind_ok hr]
    rfl
  rw [visible, M.get_bind_apply, if_neg (by rw [selNull_eq, h, decide_eq_false (by omega)]; decide), M.bind_ok hd]
  rfl

theorem verify_ok {s u v : State} {rm : Rm} {sel : Word} {od : Option Descriptor} (hp : s.protMode = true)
    (read : readRm .w16 rm s = .ok sel u) (see : visible sel u = .ok od v) (ok : Descriptor → Bool) :
    verify ok rm s = .ok () { v with flags := { v.flags with zf := od.any ok } } := by
  rw [verify, M.bind_ok (requireProtected_ok hp), M.bind_ok read, M.bind_ok see, setZf_apply]

/-- The registers LAR and LSL leave. -/
def Regs.loaded (g : Regs) (w : Width) (r : Reg) (value : Descriptor → Dword) : Option Descriptor → Regs
  | none => g
  | some d => g.write w r ((value d).setWidth w.bits)

theorem loadFromDesc_ok {s u v : State} {rm : Rm} {sel : Word} {od : Option Descriptor} (hp : s.protMode = true)
    (read : readRm .w16 rm s = .ok sel u) (see : visible sel u = .ok od v) (ok : Descriptor → Bool)
    (value : Descriptor → Dword) (r : Reg) :
    loadFromDesc ok value r rm s = .ok () { v with
      regs := v.regs.loaded s.vWidth r value (od.filter ok)
      flags := { v.flags with zf := od.any ok } } := by
  rw [loadFromDesc, M.bind_ok (requireProtected_ok hp), M.get_bind_apply, M.bind_ok read, M.bind_ok see]
  cases od with
  | none => rfl
  | some d =>
    cases h : ok d <;>
      simp [h, Option.filter, Regs.loaded, setZf_apply, setReg_apply, State.withReg, M.bind_apply]

theorem descReachable_eq (d : Descriptor) (cpl : BitVec 2) (sel : Word) : descReachable d cpl (selRpl sel) =
    ((descS d && descE d && descC d) ||
      (decide (cpl.toNat ≤ (descDpl d).toNat) && decide (sel.toNat % 4 ≤ (descDpl d).toNat))) := by
  rw [descReachable, descConforming, Bool.and_assoc, ← selRpl_toNat]
  rfl

theorem larType_eq (d : Descriptor) : larType d = (descS d || [1, 2, 3, 4, 5, 9, 11, 12].contains (descType d)) := by
  simp [larType, Bool.or_assoc, Bool.beq_eq_decide_eq]

theorem lslType_eq (d : Descriptor) : lslType d = (descS d || [1, 2, 3, 9, 11].contains (descType d)) := by
  simp [lslType, Bool.or_assoc, Bool.beq_eq_decide_eq]

/-- The table test of the model is that of the rule. -/
theorem inTable_iff (s : State) (sel : Word) : s.inTable sel = true ↔
    (if sel.getLsbD 2 then s.ldtr.valid = true ∧ 8 * (sel.toNat / 8) + 7 ≤ s.ldtr.limit.toNat
     else 8 * (sel.toNat / 8) + 7 ≤ s.gdtr.limit.toNat) := by
  rw [State.inTable, selOffset_toNat, selTi]
  split
  · rw [Bool.and_eq_true, decide_eq_true_iff]
  · rw [decide_eq_true_iff]

/-- A descriptor that is seen if `b`. -/
theorem any_ite (b : Bool) (d : Descriptor) (ok : Descriptor → Bool) :
    (if b then some d else none : Option Descriptor).any ok = (b && ok d) := by cases b <;> rfl

theorem loaded_ite (g : Regs) (w : Width) (r : Reg) (value : Descriptor → Dword) (b : Bool) (d : Descriptor)
    (ok : Descriptor → Bool) : g.loaded w r value ((if b then some d else none : Option Descriptor).filter ok) =
      if b && ok d then g.write w r ((value d).setWidth w.bits) else g := by
  cases b
  · rfl
  · cases h : ok d <;> simp [h, Option.filter, Regs.loaded]

/-- The tests of a selector that is seen as `od`. -/
theorem pointerTests {s u v : State} {rm : Rm} {sel : Word} {od : Option Descriptor} (c : s.closed = true)
    (hp : s.protMode = true) (h : Touched s v) (read : readRm .w16 rm s = .ok sel u)
    (see : visible sel u = .ok od v) :
    Sets s (.verr rm) s.regs { s.flags with zf := od.any verrOk } ∧
    Sets s (.verw rm) s.regs { s.flags with zf := od.any verwOk } ∧ ∀ r,
    Sets s (.lar r rm) (s.regs.loaded s.vWidth r accessRights (od.filter larType))
      { s.flags with zf := od.any larType } ∧
    Sets s (.lsl r rm) (s.regs.loaded s.vWidth r descLimit (od.filter lslType))
      { s.flags with zf := od.any lslType } := by
  rw [← h.flags, ← h.regs]
  exact ⟨Sets.intro_eq rfl c h (verify_ok hp read see verrOk) rfl rfl rfl,
    Sets.intro_eq rfl c h (verify_ok hp read see verwOk) rfl rfl rfl,
    fun r => ⟨Sets.intro_eq rfl c h (loadFromDesc_ok hp read see larType accessRights r) rfl rfl rfl,
      Sets.intro_eq rfl c h (loadFromDesc_ok hp read see lslType descLimit r) rfl rfl rfl⟩⟩

/-- Settles O43. -/
theorem pointerTestsSetZero : Obligations.PointerTestsSetZero := by
  intro s u rm p write c hp hl
  have h := Touched.of_locate hl
  refine ⟨fun hw r => ⟨fun hlt => ?_, fun hle => ?_⟩, fun hw => ⟨fun hn r => ?_, fun hn hin x v hx => ?_⟩⟩
  · subst hw
    have hb := adjustRpl_apply (r := r) c hp hl
    simp only [selRpl_eq] at hb
    rw [if_pos (BitVec.lt_def.2 hlt)] at hb
    exact Writes.intro_eq rfl c hl hb (by rw [← h.flags]) rfl
  · subst hw
    have hb := adjustRpl_apply (r := r) c hp hl
    simp only [selRpl_eq] at hb
    rw [if_neg (fun hlt => absurd (BitVec.lt_def.1 hlt) (not_lt.2 hle))] at hb
    exact Sets.intro_eq rfl c h hb h.regs (by rw [← h.flags]) rfl
  · subst hw
    have read := readRm_ok c hl
    have see := visible_none (s := u) (sel := u.placeValue .w16 p) (hn.imp id fun hn => by
      rw [← Bool.not_eq_true, inTable_iff, h.ldtr, h.gdtr]
      exact hn)
    obtain ⟨h1, h2, h3⟩ := pointerTests c hp h read see
    exact ⟨h1, h2, h3 r⟩
  · subst hw
    have read := readRm_ok c hl
    have see := visible_some (s := u) hn ((inTable_iff u _).2 (by rw [h.ldtr, h.gdtr]; exact hin))
      (by rw [selOffset_eq, selTi, h.ldtr, h.gdtr]; exact hx)
    have hv : Touched s v := h.trans ((Touches.sysRead _ _ _).1 _ _ hx)
    obtain ⟨h1, h2, h3⟩ := pointerTests c hp hv read see
    simp only [any_ite, loaded_ite, descReachable_eq, larType_eq, lslType_eq, h.cpl] at h1 h2 h3
    refine ⟨?_, ?_, h3⟩
    · simpa only [verrOk, Bool.and_assoc] using h1
    · simpa only [verwOk, descIsStack, Bool.and_assoc] using h2

end Sys2Proof.Machine

/-! Paging and ports: obligations O28, O29 and O52. -/

namespace Sys2Proof.Machine

/-! The I/O permission bitmap. -/

theorem readAt_two_lt (m : Memory) (a : Dword) : m.readAt (addrRun a 2) < 65536 := by
  have h := m.readAt_lt (addrRun a 2)
  rwa [length_addrRun] at h

/-- The low `n` bits are 0. -/
theorem mod_two_pow_eq_zero_iff (x n : Nat) : x % 2 ^ n = 0 ↔ ∀ k < n, x.testBit k = false := by
  refine ⟨fun h k hk => ?_, fun h => Nat.eq_of_testBit_eq fun k => ?_⟩
  · have hb : (x % 2 ^ n).testBit k = false := by rw [h, Nat.zero_testBit]
    rwa [Nat.testBit_mod_two_pow, decide_eq_true hk, Bool.true_and] at hb
  · rw [Nat.testBit_mod_two_pow, Nat.zero_testBit]
    by_cases hk : k < n
    · rw [h k hk, Bool.and_false]
    · rw [decide_eq_false hk, Bool.false_and]

/-- The model tests the bits of the port as the rule does. -/
theorem permitted_bits (x port n : Nat) (h : x < 65536) :
    ((BitVec.ofNat 16 x >>> (port % 8)).toNat % 2 ^ n = 0) ↔ ∀ k < n, x.testBit (port % 8 + k) = false := by
  rw [BitVec.toNat_ushiftRight, BitVec.toNat_ofNat, Nat.mod_eq_of_lt h, mod_two_pow_eq_zero_iff]
  simp only [Nat.testBit_shiftRight]

theorem require_bind_apply {α : Type} (ok : Bool) (e : Exn) (f : Unit → M α) (s : State) :
    (require ok e >>= f) s = if ok = true then f () s else .error (.exn e) s := by
  cases ok <;> rfl

theorem ioPermitted_free {s : State} (h : s.cr0.pe = false ∨ (s.flags.vm = false ∧ s.cpl.toNat ≤ s.flags.iopl.toNat))
    (port n : Nat) : ioPermitted port n s = .ok () s := by
  rw [ioPermitted, M.get_bind_apply]
  rcases h with h | ⟨hv, hi⟩
  · rw [h]
    rfl
  · rw [hv, decide_eq_true (BitVec.le_def.2 hi)]
    cases s.cr0.pe <;> rfl

section
variable {s : State} {port n : Nat}

/-- The word of the TSS at an offset. -/
def State.tssWord (s : State) (k : Nat) : Nat := s.mem.readAt (addrRun (s.tr.base + BitVec.ofNat 32 k) 2)

theorem State.tssWord_lt (s : State) (k : Nat) : s.tssWord k < 65536 := readAt_two_lt _ _

/-- Where I/O is not free the bitmap of the TSS decides. -/
theorem ioPermitted_bitmap
    (h : ¬ (s.cr0.pe = false ∨ (s.flags.vm = false ∧ s.cpl.toNat ≤ s.flags.iopl.toNat))) (c : s.closed = true)
    (hp : s.cr0.pg = false) :
    let at_ := s.tssWord 0x66 + port / 8
    ioPermitted port n s =
      if (s.tr.is386 = true ∧ 0x67 ≤ s.tr.limit.toNat ∧ at_ + 1 ≤ s.tr.limit.toNat) ∧
        ∀ k < n, (s.tssWord at_).testBit (port % 8 + k) = false
      then .ok () s else .error (.exn (.gp 0)) s := by
  intro at_
  have hpe : s.cr0.pe = true := by
    rw [← Bool.not_eq_false]
    exact fun hf => h (.inl hf)
  have hfree : (!s.flags.vm && decide (s.cpl ≤ s.flags.iopl)) = false := by
    rw [← Bool.not_eq_true, Bool.and_eq_true, Bool.not_eq_true', decide_eq_true_eq]
    exact fun hf => h (.inr ⟨hf.1, BitVec.le_def.1 hf.2⟩)
  have word : ∀ k, sysRead16 (s.tr.base + BitVec.ofNat 32 k) s = .ok (BitVec.ofNat 16 (s.tssWord k)) s :=
    fun k => sysRead16_off c hp _
  have mapWord : sysRead16 (s.tr.base + 0x66) s = .ok (BitVec.ofNat 16 (s.tssWord 0x66)) s := word 0x66
  have base : (BitVec.ofNat 16 (s.tssWord 0x66)).toNat + port / 8 = at_ := by
    rw [BitVec.toNat_ofNat, Nat.mod_eq_of_lt (s.tssWord_lt _)]
  rw [ioPermitted, M.get_bind_apply, hpe, hfree, if_neg (by decide), if_neg (by decide), require_bind_apply,
    require_bind_apply, M.bind_ok mapWord]
  simp only [base]
  rw [require_bind_apply, M.bind_ok (word at_), require_apply]
  simp only [decide_eq_true_eq, permitted_bits _ port n (s.tssWord_lt _)]
  simp only [ite_and]

end

/-- Settles O29. -/
theorem ioPermissionBitmapChecked : Obligations.IoPermissionBitmapChecked := by
  intro s port n
  refine ⟨fun h => ioPermitted_free h port n, fun h c hp => ⟨fun room hb => ?_, fun room ⟨k, hk, hb⟩ => ?_,
    fun room => ?_⟩⟩
  · exact (ioPermitted_bitmap h c hp).trans (if_pos ⟨room, hb⟩)
  · refine (ioPermitted_bitmap h c hp).trans (if_neg fun hr => ?_)
    exact absurd (hb.symm.trans (hr.2 k hk)) (by decide)
  · exact (ioPermitted_bitmap h c hp).trans (if_neg fun hr => room hr.1)

/-! Page walks. -/

/-- Below the addresses of a list every byte reads as unlisted. -/
theorem Memory.read_below {n : Nat} {m : Memory} (h : m.wfAbove n = true) {a : Nat} (ha : a ≤ n) :
    m.read a = unlisted := by
  induction m generalizing n with
  | nil => rfl
  | cons c m ih =>
    obtain ⟨k, w⟩ := c
    simp only [wfAbove, Bool.and_eq_true, decide_eq_true_eq] at h
    rw [read, if_neg (by omega)]
    exact ih h.2 (by omega)

/-- Writing a byte that is there already changes nothing. -/
theorem Memory.write_read {m : Memory} (h : m.wf = true) (a : Nat) : m.write a (m.read a) = m := by
  induction m with
  | nil => rfl
  | cons c m ih =>
    obtain ⟨k, w⟩ := c
    simp only [wf, Bool.and_eq_true, decide_eq_true_eq] at h
    obtain ⟨⟨-, hw⟩, habove⟩ := h
    rw [read, write]
    rcases lt_trichotomy a k with hlt | rfl | hgt
    · rw [if_pos hlt, if_neg (Nat.ne_of_gt hlt), if_pos (read_below habove hlt.le)]
    · rw [if_neg (lt_irrefl a), if_pos rfl, if_pos rfl, if_neg hw]
    · rw [if_neg (by omega), if_neg (by omega), if_neg (by omega), ih (wf_of_wfAbove habove)]

theorem Memory.writeAt_readAt {m : Memory} (h : m.wf = true) (ps : List Dword) : m.writeAt ps (m.readAt ps) = m := by
  induction ps with
  | nil => rfl
  | cons p ps ih =>
    have hb := (m.read p.toNat).isLt
    have hd : ((m.read p.toNat).toNat + 256 * m.readAt ps) / 256 = m.readAt ps := by omega
    have hm : BitVec.ofNat 8 ((m.read p.toNat).toNat + 256 * m.readAt ps) = m.read p.toNat := by
      apply BitVec.eq_of_toNat_eq
      rw [BitVec.toNat_ofNat]
      omega
    rw [readAt, writeAt, hd, ih, hm, write_read h]

theorem or_self_of_getLsbD {n : Nat} {x : BitVec n} {k : Nat} (h : x.getLsbD k = true) :
    x ||| BitVec.twoPow n k = x := by
  ext i hi
  rw [BitVec.getElem_or, BitVec.getElem_twoPow]
  by_cases hk : i = k
  · subst hk
    rw [BitVec.getLsbD_eq_getElem hi] at h
    simp [h]
  · simp [hk]

/-- An entry with its A bit set. -/
theorem or_accessed {x : Dword} (h : x.getLsbD 5 = true) : x ||| 0x20 = x := or_self_of_getLsbD (k := 5) h

theorem or_dirty {x : Dword} (h : x.getLsbD 6 = true) : x ||| 0x40 = x := or_self_of_getLsbD (k := 6) h

/-- A page table entry in memory. -/
def Memory.entry (m : Memory) (ps : List Dword) : Dword := BitVec.ofNat 32 (m.readAt ps)

theorem Memory.entry_toNat (m : Memory) (a : Dword) : (m.entry (addrRun a 4)).toNat = m.readAt (addrRun a 4) := by
  have h := m.readAt_lt (addrRun a 4)
  rw [length_addrRun] at h
  rw [entry, BitVec.toNat_ofNat]
  exact Nat.mod_eq_of_lt h

theorem readEntry_closed {s : State} (c : s.closed = true) (ps : List Dword) :
    readEntry ps s = .ok (s.mem.entry ps) s := by
  rw [readEntry, M.bind_ok (memRead_closed c ps)]
  rfl

/-- Bits of an entry set in memory, where it needs it: the entry with the bits is what stands there then. -/
theorem updateEntry_closed {s : State} (c : s.closed = true) (a k : Dword) {needed : Bool}
    (hn : needed = false → s.mem.entry (addrRun a 4) ||| k = s.mem.entry (addrRun a 4)) :
    ∃ q, updateEntry needed (addrRun a 4) k s = .ok () { s with
      mem := s.mem.writeAt (addrRun a 4) (s.mem.entry (addrRun a 4) ||| k).toNat, prefetch := q } := by
  cases needed with
  | false =>
    refine ⟨s.prefetch, ?_⟩
    rw [hn rfl, Memory.entry_toNat, Memory.writeAt_readAt (s.closed_wf c)]
    rfl
  | true =>
    have e := lockedModify_closed c (addrRun a 4) fun v => (BitVec.ofNat 32 v ||| k).toNat
    rw [State.putBytes_eq] at e
    exact ⟨_, e⟩

theorem entryAddr_aligned (t : BitVec 20) (i : BitVec 10) : (entryAddr t i).toNat % 4 = 0 := by
  rw [entryAddr, toNat_append_eq]
  have : (0 : BitVec 2).toNat = 0 := rfl
  omega

/-- Entries at different addresses share no byte. -/
theorem entries_apart {a b p : Dword} (ha : a.toNat % 4 = 0) (hb : b.toNat % 4 = 0) (h : a ≠ b)
    (hp : p ∈ addrRun b 4) : p ∉ addrRun a 4 := by
  intro hq
  obtain ⟨i, hi, rfl⟩ := mem_addrRun.1 hp
  obtain ⟨j, hj, e⟩ := mem_addrRun.1 hq
  apply h
  apply BitVec.eq_of_toNat_eq
  have e' := congrArg BitVec.toNat e
  simp only [BitVec.toNat_add, BitVec.toNat_ofNat] at e'
  have := a.isLt
  have := b.isLt
  omega

/-- The page table entry after the directory entry was marked: marked itself if it is the same one. -/
theorem entry_after_mark {m : Memory} (hm : m.wf = true) {a b : Dword} (ha : a.toNat % 4 = 0) (hb : b.toNat % 4 = 0) :
    (m.writeAt (addrRun a 4) (m.entry (addrRun a 4) ||| 0x20).toNat).entry (addrRun b 4) = m.entry (addrRun b 4) ∨
    (m.writeAt (addrRun a 4) (m.entry (addrRun a 4) ||| 0x20).toNat).entry (addrRun b 4) =
      m.entry (addrRun b 4) ||| 0x20 := by
  by_cases h : a = b
  · subst h
    right
    have hlt : (m.entry (addrRun a 4) ||| 0x20).toNat < 256 ^ (addrRun a 4).length := by
      rw [length_addrRun]
      exact (m.entry (addrRun a 4) ||| 0x20).isLt
    rw [Memory.entry, Memory.readAt_writeAt_same hm (nodup_addrRun a (by decide)) hlt, BitVec.ofNat_toNat,
      BitVec.setWidth_eq]
  · left
    rw [Memory.entry, Memory.readAt_writeAt_other _ _ _ fun p hp => entries_apart ha hb h hp]
    rfl

/-- A way of a set is below 4. -/
theorem tlbWay_lt {tlb : List (Option TlbEntry)} {page : BitVec 20} {way : Nat} (h : tlbWay tlb page = some way) :
    way < 4 := by
  have key : ∀ f : Option TlbEntry → Bool, (tlbSet tlb page).findIdx? f = some way → way < 4 := fun f hf => by
    obtain ⟨hlt, -⟩ := List.findIdx?_eq_some_iff_getElem.1 hf
    have hle : (tlbSet tlb page).length ≤ 4 := List.length_take_le _ _
    omega
  unfold tlbWay at h
  rcases Option.or_eq_some_iff.1 h with h | ⟨-, h⟩
  · exact key _ h
  · exact key _ h

/-- An inserted entry is in the TLB. -/
theorem tlbInsert_ok (e : TlbEntry) (s : State) (h : s.tlb.length = 32) :
    ∃ tlb k, tlbInsert e s = .ok () { s with tlb := tlb, free := k } ∧ some e ∈ tlb := by
  have mem : ∀ way < 4, some e ∈ s.tlb.set (4 * (e.tag.extractLsb' 0 3).toNat + way) (some e) := fun way hw => by
    have := (e.tag.extractLsb' 0 3).isLt
    exact List.mem_set (by omega) _
  rw [tlbInsert, M.get_bind_apply]
  cases hw : tlbWay s.tlb e.tag with
  | some way => exact ⟨_, s.free, rfl, mem way (tlbWay_lt hw)⟩
  | none => exact ⟨_, _, rfl, mem _ ((Config.freeValue s.free).setWidth 2).isLt⟩

section
variable {s : State} {lin : Dword} {write user : Bool}

/-- Where the entries of a linear address lie, and what stands there. -/
def State.pdeAt (s : State) (lin : Dword) : List Dword := addrRun (entryAddr s.cr3 (lin.extractLsb' 22 10)) 4
def State.pde (s : State) (lin : Dword) : Dword := s.mem.entry (s.pdeAt lin)
def State.pteAt (s : State) (lin : Dword) : List Dword :=
  addrRun (entryAddr ((s.pde lin).extractLsb' 12 20) (lin.extractLsb' 12 10)) 4
def State.pte (s : State) (lin : Dword) : Dword := s.mem.entry (s.pteAt lin)

/-- A walk up to its tests. -/
theorem pageWalk_absent (c : s.closed = true) (h : ¬ ((s.pde lin).getLsbD 0 = true ∧ (s.pte lin).getLsbD 0 = true)) :
    pageWalk lin write user s = .error (.exn (.pf lin false write user)) s := by
  have pde : readEntry (s.pdeAt lin) s = .ok (s.pde lin) s := readEntry_closed c _
  have pte : readEntry (s.pteAt lin) s = .ok (s.pte lin) s := readEntry_closed c _
  rw [pageWalk, M.get_bind_apply]
  refine (M.bind_ok pde _).trans ?_
  rw [require_bind_apply]
  split
  case isFalse => rfl
  case isTrue hd =>
    refine (M.bind_ok pte _).trans (require_fail ?_ _ _ _)
    rw [← Bool.not_eq_true]
    exact fun ht => h ⟨hd, ht⟩

/-- Whether the tables let the access through. -/
def State.walkAllows (s : State) (lin : Dword) (write user : Bool) : Bool :=
  !user || (((s.pde lin).getLsbD 2 && (s.pte lin).getLsbD 2) &&
    (!write || ((s.pde lin).getLsbD 1 && (s.pte lin).getLsbD 1)))

theorem pageWalk_denied (c : s.closed = true) (hd : (s.pde lin).getLsbD 0 = true) (ht : (s.pte lin).getLsbD 0 = true)
    (h : s.walkAllows lin write user = false) :
    pageWalk lin write user s = .error (.exn (.pf lin true write user)) s := by
  have pde : readEntry (s.pdeAt lin) s = .ok (s.pde lin) s := readEntry_closed c _
  have pte : readEntry (s.pteAt lin) s = .ok (s.pte lin) s := readEntry_closed c _
  rw [pageWalk, M.get_bind_apply]
  exact (M.bind_ok pde _).trans ((require_pass hd _ _ _).trans ((M.bind_ok pte _).trans
    ((require_pass ht _ _ _).trans (require_fail h _ _ _))))

/-- The entry a walk puts into the TLB. -/
def State.walkEntry (s : State) (lin : Dword) (write : Bool) : TlbEntry :=
  { tag := pageOf lin, phys := (s.pte lin).extractLsb' 12 20, d := (s.pte lin).getLsbD 6 || write,
    u := (s.pde lin).getLsbD 2 && (s.pte lin).getLsbD 2, w := (s.pde lin).getLsbD 1 && (s.pte lin).getLsbD 1 }

theorem or_marks (x : Dword) (write : Bool) :
    x ||| (if write then 0x60 else 0x20) = x ||| 0x20 ||| (if write then 0x40 else 0) := by
  rw [BitVec.or_assoc]
  cases write <;> rfl

/-- An entry that needs no more bits has them. -/
theorem marked_of_needless {x : Dword} (h : (!x.getLsbD 5 || (write && !x.getLsbD 6)) = false) :
    x.getLsbD 5 = true ∧ (write = true → x.getLsbD 6 = true) := by
  rw [Bool.or_eq_false_iff, Bool.not_eq_false'] at h
  refine ⟨h.1, fun hw => ?_⟩
  have h6 := h.2
  rwa [hw, Bool.true_and, Bool.not_eq_false'] at h6

theorem or_marks_self {x : Dword} (h5 : x.getLsbD 5 = true) (h6 : write = true → x.getLsbD 6 = true) :
    x ||| 0x20 ||| (if write then 0x40 else 0) = x := by
  rw [or_accessed h5]
  cases write with
  | false => exact BitVec.or_zero
  | true => exact or_dirty (h6 rfl)

theorem pageWalk_allowed (c : s.closed = true) (hl : s.tlb.length = 32) (hd : (s.pde lin).getLsbD 0 = true)
    (ht : (s.pte lin).getLsbD 0 = true) (h : s.walkAllows lin write user = true) :
    ∃ t, pageWalk lin write user s = .ok ((s.pte lin).extractLsb' 12 20 ++ lin.extractLsb' 0 12) t ∧
      t.regs = s.regs ∧
      t.mem = (s.mem.writeAt (s.pdeAt lin) (s.pde lin ||| 0x20).toNat).writeAt (s.pteAt lin)
        (s.pte lin ||| 0x20 ||| (if write then 0x40 else 0)).toNat ∧
      some (s.walkEntry lin write) ∈ t.tlb := by
  have pde : readEntry (s.pdeAt lin) s = .ok (s.pde lin) s := readEntry_closed c _
  have pte : readEntry (s.pteAt lin) s = .ok (s.pte lin) s := readEntry_closed c _
  obtain ⟨q1, e1⟩ := updateEntry_closed c (entryAddr s.cr3 (lin.extractLsb' 22 10)) 0x20
    (needed := !(s.pde lin).getLsbD 5) fun hn => or_accessed (by rwa [Bool.not_eq_false'] at hn)
  let m1 := s.mem.writeAt (s.pdeAt lin) (s.pde lin ||| 0x20).toNat
  have wf1 : m1.wf = true := Memory.wf_writeAt _ _ (s.closed_wf c)
  have marked : m1.entry (s.pteAt lin) = s.pte lin ∨ m1.entry (s.pteAt lin) = s.pte lin ||| 0x20 :=
    entry_after_mark (s.closed_wf c) (entryAddr_aligned _ _) (entryAddr_aligned _ _)
  have bits : m1.entry (s.pteAt lin) ||| (if write then 0x60 else 0x20) =
      s.pte lin ||| 0x20 ||| (if write then 0x40 else 0) := by
    rw [or_marks]
    rcases marked with e | e <;> rw [e]
    rw [BitVec.or_assoc (s.pte lin), BitVec.or_self]
  have c1 : ({ s with mem := m1, prefetch := q1 } : State).closed = true :=
    State.closed_iff.2 ⟨wf1, s.closed_masters c, s.closed_map c⟩
  obtain ⟨q2, e2⟩ := updateEntry_closed c1 (entryAddr ((s.pde lin).extractLsb' 12 20) (lin.extractLsb' 12 10))
    (if write then 0x60 else 0x20) (needed := !(s.pte lin).getLsbD 5 || (write && !(s.pte lin).getLsbD 6)) fun hn => by
      obtain ⟨h5, h6⟩ := marked_of_needless hn
      refine (bits.trans (or_marks_self h5 h6)).trans ?_
      rcases marked with e | e
      · exact e.symm
      · exact (e.trans (or_accessed h5)).symm
  let m2 := m1.writeAt (s.pteAt lin) (m1.entry (s.pteAt lin) ||| (if write then 0x60 else 0x20)).toNat
  obtain ⟨tlb, k, e3, hm⟩ := tlbInsert_ok (s.walkEntry lin write) { s with mem := m2, prefetch := q2 } hl
  refine ⟨{ s with mem := m2, prefetch := q2, tlb := tlb, free := k }, ?_, rfl, ?_, hm⟩
  · rw [pageWalk, M.get_bind_apply]
    exact (M.bind_ok pde _).trans ((require_pass hd _ _ _).trans ((M.bind_ok pte _).trans
      ((require_pass ht _ _ _).trans ((require_pass h _ _ _).trans ((M.bind_ok e1 _).trans
      ((M.bind_ok e2 _).trans (M.bind_ok e3 _)))))))
  · exact congrArg (fun x : Dword => m1.writeAt (s.pteAt lin) x.toNat) bits

/-! Translation. -/

/-- The tables are walked where the TLB has no entry for the page, or a clean one for a write. -/
theorem translate_walks (hp : s.cr0.pg = true) (sys : Bool)
    (h : tlbMatches s.tlb (lin.extractLsb' 12 20) = [] ∨
      ∃ e, tlbMatches s.tlb (lin.extractLsb' 12 20) = [e] ∧ write = true ∧ e.d = false) :
    translate lin write sys s = pageWalk lin write (decide (s.cpl = 3) && !sys) s := by
  rw [translate, M.get_bind_apply, if_neg (by rw [hp]; decide), pageOf]
  rcases h with h | ⟨e, h, hw, hd⟩
  · rw [h]
  · rw [h]
    exact congrFun (if_neg (by rw [hw, hd]; decide)) s

theorem translate_cached (hp : s.cr0.pg = true) (sys : Bool) {e : TlbEntry}
    (h : tlbMatches s.tlb (lin.extractLsb' 12 20) = [e]) (hd : write = false ∨ e.d = true) :
    let user := decide (s.cpl = 3) && !sys
    translate lin write sys s = if (!user || (e.u && (!write || e.w))) = true
      then .ok (e.phys ++ lin.extractLsb' 0 12) s else .error (.exn (.pf lin true write user)) s := by
  intro user
  rw [translate, M.get_bind_apply, if_neg (by rw [hp]; decide), pageOf, h]
  refine (congrFun (if_pos ?_) s).trans (require_bind_apply _ _ _ _)
  rcases hd with hd | hd <;> simp [hd]

/-- A test of privilege as the model computes it. -/
theorem allowed_iff (user write u w : Bool) :
    (!user || (u && (!write || w))) = true ↔ (user = true → u = true ∧ (write = true → w = true)) := by
  cases user <;> cases write <;> simp

end

/-- Settles O52. -/
theorem pageWalkTranslatesOrFaults : Obligations.PageWalkTranslatesOrFaults := by
  intro s lin write sys c hl hp
  refine ⟨fun h => ?_, fun e he hd => ⟨fun ha => ?_, fun ha => ?_⟩⟩
  · have walk := translate_walks hp sys h
    have allows : s.walkAllows lin write (decide (s.cpl = 3) && !sys) = true ↔
        ((decide (s.cpl = 3) && !sys) = true → ((s.pde lin).getLsbD 2 = true ∧ (s.pte lin).getLsbD 2 = true) ∧
          (write = true → (s.pde lin).getLsbD 1 = true ∧ (s.pte lin).getLsbD 1 = true)) := by
      simp only [State.walkAllows, allowed_iff, Bool.and_eq_true]
    refine ⟨fun hn => ?_, fun hpr ha => ?_, fun hpr ha => ?_⟩
    · exact walk.trans (pageWalk_absent c hn)
    · refine walk.trans (pageWalk_denied c hpr.1 hpr.2 ?_)
      rw [← Bool.not_eq_true]
      exact fun hw => ha (allows.1 hw)
    · obtain ⟨t, he, hr, hm, hi⟩ := pageWalk_allowed c hl hpr.1 hpr.2 (allows.2 ha)
      exact ⟨t, walk.trans he, hr, hm, hi⟩
  · exact (translate_cached hp sys he hd).trans (if_pos ((allowed_iff _ _ _ _).2 ha))
  · exact (translate_cached hp sys he hd).trans (if_neg fun h => ha ((allowed_iff _ _ _ _).1 h))

/-! Ports. -/

theorem portForm_lt {s : State} {i : Instr} {input : Bool} {w : Width} {port : Nat} (h : PortForm s i input w port) :
    port < 65536 := by
  cases h
  case inAlImm8 port | inEaxImm8 port | outImm8Al port | outImm8Eax port => exact port.isLt.trans (by decide)
  case inAlDx | inEaxDx | outDxAl | outDxEax => exact (s.regs.read .w16 .edx).isLt

theorem portForm_runs {s : State} {i : Instr} {input : Bool} {w : Width} {port : Nat} (h : PortForm s i input w port) :
    exec i s = runSimple (if input then inPort w port else outPort w port) s := by
  cases h
  case inAlImm8 | inEaxImm8 | outImm8Al | outImm8Eax | inAlDx | inEaxDx | outDxAl | outDxEax => rfl

theorem Touched.of_ioPermitted {port n : Nat} {s u : State} (h : ioPermitted port n s = .ok () u) : Touched s u :=
  (Touches.ioPermitted port n s).1 _ _ h

theorem Touched.portLog {s u : State} (h : Touched s u) (write : Bool) (port n v : Nat) :
    u.portLog write port n v = s.portLog write port n v := State.portLog_congr (by rw [h.rest]) ..

theorem inPort_ok {s u : State} {w : Width} {port : Nat} (c : s.closed = true) (hp : port < 65536)
    (h : ioPermitted port w.bytes s = .ok () u) : ∃ (v : BitVec w.bits) (n : Nat),
    inPort w port s = .ok () { u with regs := u.regs.write w .eax v, free := n,
                                      ioLog := s.portLog false port w.bytes v.toNat ++ u.ioLog } := by
  have hu := Touched.of_ioPermitted h
  obtain ⟨v, n, e⟩ := ioRead_record (State.closed_masters (hu.stays c)) hp w
  refine ⟨v, n, ?_⟩
  rw [inPort, M.bind_ok h, M.bind_ok e, setReg_apply, hu.portLog]
  rfl

theorem outPort_ok {s u : State} {w : Width} {port : Nat} (c : s.closed = true) (hp : port < 65536)
    (h : ioPermitted port w.bytes s = .ok () u) :
    outPort w port s =
      .ok () { u with ioLog := s.portLog true port w.bytes (s.regs.read w .eax).toNat ++ u.ioLog } := by
  have hu := Touched.of_ioPermitted h
  have hg : getReg w .eax u = .ok (s.regs.read w .eax) u := by rw [getReg_apply, hu.regs]
  rw [outPort, M.bind_ok h, M.bind_ok hg, ioWrite_record (State.closed_masters (hu.stays c)) hp, hu.portLog]
  rfl

/-! One byte in memory where anything may answer. -/

/-- What a byte cycle adds to the record of device cycles. -/
def State.byteLog (s : State) (write : Bool) (p : Dword) (v : Byte) : List IoCycle :=
  if s.kindAt p = .device then .memory write p 1 (v.setWidth 32) :: s.ioLog else s.ioLog

theorem readCycle_byte {s : State} (h : s.masters = []) (p : Dword) : ∃ (v : Byte) (k : Nat),
    readCycle [p] s = .ok v.toNat { s with free := k, ioLog := s.byteLog false p v } ∧
    (s.kindAt p = .ram ∨ s.kindAt p = .rom → v = s.mem.read p.toNat) := by
  have stored : s.mem.readAt [p] = (s.mem.read p.toNat).toNat := by simp [Memory.readAt]
  let x : Nat := ((Config.freeValue s.free).setWidth 32).toNat % 256
  have hx : (BitVec.ofNat 8 x).toNat = x := by
    rw [BitVec.toNat_ofNat]
    exact Nat.mod_eq_of_lt (Nat.mod_lt _ (by decide))
  unfold readCycle
  rw [M.bind_ok (busGap_none h), M.get_bind_apply, List.headD_cons]
  unfold State.byteLog
  cases hk : s.kindAt p
  case ram | rom =>
    refine ⟨s.mem.read p.toNat, s.free, ?_, fun _ => rfl⟩
    rw [if_neg (by decide), ← stored]
    rfl
  case device =>
    refine ⟨BitVec.ofNat 8 x, s.free + 1, ?_, by rintro (h | h) <;> cases h⟩
    have hw : ((BitVec.ofNat 8 x).setWidth 32 : Dword) = BitVec.ofNat 32 x := by
      apply BitVec.eq_of_toNat_eq
      have : x < 256 := Nat.mod_lt _ (by decide)
      rw [BitVec.toNat_setWidth, hx, BitVec.toNat_ofNat]
    rw [if_pos rfl, hx, hw]
    rfl
  case absent =>
    refine ⟨BitVec.ofNat 8 x, s.free + 1, ?_, by rintro (h | h) <;> cases h⟩
    rw [if_neg (by decide), hx]
    rfl

theorem memRead_byte {s : State} (h : s.masters = []) (p : Dword) : ∃ (v : Byte) (k : Nat),
    memRead [p] s = .ok v.toNat { s with free := k, ioLog := s.byteLog false p v } ∧
    (s.kindAt p = .ram ∨ s.kindAt p = .rom → v = s.mem.read p.toNat) := by
  obtain ⟨v, k, e, hv⟩ := readCycle_byte h p
  refine ⟨v, k, ?_, hv⟩
  rw [memRead, busCycles, readCycles, readCycles, M.pure_bind_apply, M.bind_ok e]
  simp

theorem memWrite_byte {s : State} (h : s.masters = []) (p : Dword) (v : Byte) : ∃ q,
    memWrite [p] v.toNat s = .ok () { s with
      mem := if s.kindAt p = .ram then s.mem.write p.toNat v else s.mem, prefetch := q
      ioLog := s.byteLog true p v } := by
  have cycle : ∃ q, writeCycle [p] v.toNat s = .ok () { s with
      mem := if s.kindAt p = .ram then s.mem.write p.toNat v else s.mem, prefetch := q
      ioLog := s.byteLog true p v } := by
    have hv : BitVec.ofNat 8 v.toNat = v := by rw [BitVec.ofNat_toNat, BitVec.setWidth_eq]
    unfold writeCycle
    rw [M.bind_ok (busGap_none h), M.get_bind_apply, List.headD_cons]
    unfold State.byteLog
    cases hk : s.kindAt p
    case ram =>
      refine ⟨(s.putByte p v).prefetch, ?_⟩
      rw [if_pos rfl, if_neg (by decide)]
      have e : s.putBytes [p] v.toNat = s.putByte p v := by rw [State.putBytes, State.putBytes, hv]
      exact congrArg (EStateM.Result.ok ()) e
    case device =>
      refine ⟨s.prefetch, ?_⟩
      have hm : BitVec.ofNat 32 (v.toNat % 256 ^ [p].length) = v.setWidth 32 := by
        have := v.isLt
        apply BitVec.eq_of_toNat_eq
        rw [BitVec.toNat_setWidth, BitVec.toNat_ofNat, List.length_singleton, pow_one, Nat.mod_eq_of_lt this]
      rw [if_neg (by decide), if_pos rfl, ← hm]
      rfl
    case rom | absent =>
      refine ⟨s.prefetch, ?_⟩
      rw [if_neg (by decide), if_neg (by decide)]
      rfl
  obtain ⟨q, e⟩ := cycle
  exact ⟨q, by rw [memWrite, busCycles, writeCycles, writeCycles, M.pure_bind_apply, e]⟩

/-- Settles O28. -/
theorem inOutRunsItsCycle : Obligations.InOutRunsItsCycle := by
  refine ⟨fun s u i input w port c hi h => ?_, fun s u ea r p hm => ⟨fun hl => ?_, fun hl => ?_⟩⟩
  · have hu := Touched.of_ioPermitted h
    have he := portForm_runs hi
    have hp := portForm_lt hi
    have hf := hu.form c
    cases input with
    | true =>
      obtain ⟨v, n, hb⟩ := inPort_ok c hp h
      obtain ⟨m, q, l, k, b, e, rfl⟩ := hf
      exact ⟨v, SetsIn.simple he hb rfl (by exact c) (hu.over c s.segs s.cpl s.cr2 s.gdtr s.idtr s.ldtr s.tr s.inhibit
        s.nmiInService _) rfl rfl rfl rfl⟩
    | false =>
      have hb := outPort_ok c hp h
      obtain ⟨m, q, l, k, b, e, rfl⟩ := hf
      exact SetsIn.simple he hb rfl (by exact c) (hu.over c s.segs s.cpl s.cr2 s.gdtr s.idtr s.ldtr s.tr s.inhibit
        s.nmiInService _) rfl rfl rfl rfl
  · have h := Touched.of_locate hl
    obtain ⟨v, k, e, hv⟩ := memRead_byte hm p
    have read : readRm .w8 (.mem ea) s = .ok v { u with free := k, ioLog := u.byteLog false p v } := by
      rw [readRm, M.bind_ok hl, getPlace, M.bind_ok e, M.pure_apply, BitVec.ofNat_toNat]
      exact congrArg (EStateM.Result.ok · _) (BitVec.setWidth_eq v)
    have hb := (M.bind_ok read fun v => setReg .w8 r v).trans (setReg_apply ..)
    refine ⟨_, v, runSimple_ok hb, ?_, State.finish_mem .., hv, State.finish_ioLog ..⟩
    rw [State.finish_regs, ← h.regs]
    rfl
  · have h := Touched.of_locate hl
    obtain ⟨q, e⟩ := memWrite_byte hm p (s.regs.read .w8 r)
    have hb := (M.bind_ok (getReg_apply .w8 r s) fun v => writeRm .w8 (.mem ea) v).trans ((M.bind_ok hl _).trans e)
    exact ⟨_, runSimple_ok hb, (State.finish_regs ..).trans h.regs, State.finish_mem .., State.finish_ioLog ..⟩

end Sys2Proof.Machine

/-! Many items at once: obligations O25 and O40. -/

namespace Sys2Proof.Machine

/-! Several stores. -/

/-- Memory with a number written to each of several places, one after the other. -/
def Memory.writeAll (m : Memory) (xs : List (List Dword × Nat)) : Memory :=
  xs.foldl (fun m x => m.writeAt x.1 x.2) m

theorem Memory.wf_writeAll {m : Memory} (h : m.wf = true) (xs : List (List Dword × Nat)) :
    (m.writeAll xs).wf = true := by
  induction xs generalizing m with
  | nil => exact h
  | cons x xs ih => exact ih (wf_writeAt _ _ h)

theorem Memory.read_writeAll_other {m : Memory} (xs : List (List Dword × Nat)) {a : Dword} (h : ∀ x ∈ xs, a ∉ x.1) :
    (m.writeAll xs).read a.toNat = m.read a.toNat := by
  induction xs generalizing m with
  | nil => rfl
  | cons x xs ih =>
    exact (ih fun y hy => h y (List.mem_cons_of_mem x hy)).trans (read_writeAt_other _ _ (h x List.mem_cons_self))

/-- Bytes outside all the places stay. -/
theorem Memory.read_writeAll_zip {m : Memory} (ls : List (List Dword)) (vs : List Nat) {a : Dword}
    (h : a ∉ ls.flatten) : (m.writeAll (ls.zip vs)).read a.toNat = m.read a.toNat :=
  read_writeAll_other _ fun x hx ha => h (List.mem_flatten.2 ⟨x.1, (List.of_mem_zip hx).1, ha⟩)

theorem memWriteAll_closed {s : State} (c : s.closed = true) (ls : List (List Dword)) (vs : List Nat) :
    ∃ q, memWriteAll ls vs s = .ok () { s with mem := s.mem.writeAll (ls.zip vs), prefetch := q } := by
  induction ls generalizing s vs with
  | nil => exact ⟨s.prefetch, rfl⟩
  | cons p ps ih =>
    cases vs with
    | nil => exact ⟨s.prefetch, rfl⟩
    | cons v vs =>
      obtain ⟨q, e⟩ := ih (s := s.putBytes p v) (State.closed_putBytes p v c) vs
      rw [State.putBytes_eq] at e
      refine ⟨q, ?_⟩
      rw [memWriteAll, M.bind_ok (memWrite_closed c p v), State.putBytes_eq, e]
      rfl

theorem Touched.of_locatePushes {n count k : Nat} {s u : State} {ls : List (List Dword)}
    (h : locatePushes n count k s = .ok ls u) : Touched s u := (Touches.locatePushes n count k s).1 _ _ h

/-- Several pushes: all stores, then the stack pointer. -/
theorem pushAll_ok {s u : State} {n : Nat} {vs : List Nat} {ls : List (List Dword)} (c : s.closed = true)
    (hl : locatePushes n vs.length 1 s = .ok ls u) :
    ∃ q, pushAll n vs s = .ok () { u with mem := u.mem.writeAll (ls.zip vs), prefetch := q,
                                          regs := s.moved (-(BitVec.ofNat 32 (n * vs.length))) } := by
  have h := Touched.of_locatePushes hl
  obtain ⟨q, e⟩ := memWriteAll_closed (h.stays c) ls vs
  refine ⟨q, ?_⟩
  rw [pushAll, M.bind_ok hl, M.bind_ok e, moveStackPtr_moved, ← h.moved]
  rfl

/-! PUSHA and POPA. -/

/-- A store of many items, and registers written. -/
theorem stores_after {s u : State} {i : Instr} {body : M Unit} {g : Regs} {m : Memory} {q : List (Nat × Byte)}
    {stored : List Dword} (c : s.closed = true) (he : exec i s = runSimple body s) (h : Touched s u)
    (hb : body s = .ok () { u with regs := g, mem := m, prefetch := q })
    (hm : ∀ a : Dword, a ∉ stored → m.read a.toNat = u.mem.read a.toNat) :
    ∃ t, exec i s = .next t ∧ After s t g s.flags.settled s.nextEip stored ∧ t.mem = m := by
  refine ⟨_, he.trans (runSimple_ok hb), ?_, State.finish_mem ..⟩
  rw [← h.flags, ← h.nextEip]
  exact After.plain c h rfl hm

/-- Writing another register and the stack pointer commute. -/
theorem Regs.write_withEsp (g : Regs) (x : Dword) (w : Width) {r : Reg} (v : BitVec w.bits) (hr : r ≠ .esp) :
    ({ g with esp := x } : Regs).write w r v = { g.write w r v with esp := x } := by
  cases r
  case esp => exact absurd rfl hr
  case eax | ecx | edx | ebx | ebp | esi | edi => cases w <;> rfl

theorem Regs.esp_write (g : Regs) (w : Width) {r : Reg} (v : BitVec w.bits) (hr : r ≠ .esp) :
    (g.write w r v).esp = g.esp := by
  have h := congrArg Regs.esp (g.write_withEsp g.esp w v hr)
  exact h

/-- Writing the low or high byte of a register looks at no stack pointer either. -/
theorem State.moved_of_esp {s t : State} (hs : t.segs = s.segs) (he : t.regs.esp = s.regs.esp) (v : Dword) :
    t.moved v = { t.regs with esp := (s.moved v).esp } := by
  unfold moved stackSet stackPtr
  rw [hs, he]

/-- The registers POPA loads, given the items. -/
def Regs.popped (g : Regs) (w : Width) (item : Nat → Nat) : Regs :=
  [(Reg.edi, 0), (.esi, 1), (.ebp, 2), (.ebx, 4), (.edx, 5), (.ecx, 6), (.eax, 7)].foldl
    (fun g x => g.write w x.1 (BitVec.ofNat w.bits (item x.2))) g

/-- Loading the registers and moving the stack pointer commute. -/
theorem Regs.popped_withEsp (g : Regs) (x : Dword) (w : Width) (item : Nat → Nat) :
    ({ g with esp := x } : Regs).popped w item = { g.popped w item with esp := x } := by
  simp only [popped, List.foldl_cons, List.foldl_nil]
  iterate 7 rw [write_withEsp _ x w _ (by decide)]

theorem Regs.esp_popped (g : Regs) (w : Width) (item : Nat → Nat) : (g.popped w item).esp = g.esp := by
  have h := congrArg Regs.esp (g.popped_withEsp g.esp w item)
  exact h

theorem popAllRegs_ok {s u : State} {w : Width} {vs : List Nat} (h : stackItems w.bytes 8 0 s = .ok vs u) :
    popAllRegs w s = .ok () { u with regs :=
      ({ u.regs with esp := (u.moved (BitVec.ofNat 32 (8 * w.bytes))).esp } : Regs).popped w (nthValue vs) } := by
  rw [popAllRegs, M.bind_ok h]
  refine (moveStackPtr_moved (BitVec.ofNat 32 (8 * w.bytes)) { u with regs := u.regs.popped w (nthValue vs) }).trans ?_
  have e := State.moved_of_esp (s := u) (t := { u with regs := u.regs.popped w (nthValue vs) }) rfl
    (Regs.esp_popped _ _ _) (BitVec.ofNat 32 (8 * w.bytes))
  rw [e, u.regs.popped_withEsp (u.moved (BitVec.ofNat 32 (8 * w.bytes))).esp]

theorem stackItems_closed {s u : State} {n count k : Nat} {ls : List (List Dword)} (c : s.closed = true)
    (hl : locateItems n count k s = .ok ls u) : stackItems n count k s = .ok (ls.map u.mem.readAt) u := by
  have h : Touched s u := (Touches.locateItems n count k s).1 _ _ hl
  rw [stackItems, M.bind_ok hl, memReadAll_closed (h.stays c)]

/-- Settles O25. -/
theorem pushPopAllMoveEveryRegister : Obligations.PushPopAllMoveEveryRegister := by
  intro s u ls c
  refine ⟨fun hl => ?_, fun di si bp any bx dx cx ax hl => ?_⟩
  · have h := Touched.of_locatePushes hl
    obtain ⟨q, e⟩ := pushAll_ok (vs := s.regs.toList.map BitVec.toNat) c hl
    have hb : pushAllRegs s.vWidth s = pushAll s.vWidth.bytes (s.regs.toList.map BitVec.toNat) s := rfl
    obtain ⟨t, he, ha, hm⟩ := stores_after (i := .pusha) c rfl h (hb.trans e)
      fun a ha => Memory.read_writeAll_zip ls _ ha
    refine ⟨t, he, ?_, ?_⟩
    · rw [Nat.mul_comm]
      exact ha
    · rw [hm, Memory.writeAll, List.zip_map_right, List.foldl_map]
      rfl
  · have h : Touched s u := (Touches.locateItems s.vWidth.bytes 8 0 s).1 _ _ hl
    have hb : popAllRegs s.vWidth s = _ := popAllRegs_ok (stackItems_closed c hl)
    refine Sets.intro_eq rfl c h hb ?_ h.flags rfl
    rw [h.moved, h.regs]
    rfl

/-! BOUND, ENTER and LEAVE. -/

theorem readParts_ok {s u v : State} {ea : EA} {n m : Nat} {p1 p2 : List Dword} (c : s.closed = true)
    (h1 : locateEa ea 0 n false s = .ok p1 u) (h2 : locateEa ea n m false u = .ok p2 v) :
    readParts ea n m s = .ok (v.mem.readAt p1, v.mem.readAt p2) v := by
  have hv := ((Touched.of_locateEa h1).trans (Touched.of_locateEa h2)).stays c
  rw [readParts, M.bind_ok h1, M.bind_ok h2, M.bind_ok (memRead_closed hv p1), M.bind_ok (memRead_closed hv p2)]
  rfl

theorem checkBounds_apply {s u v : State} {w : Width} {r : Reg} {ea : EA} {p1 p2 : List Dword} (c : s.closed = true)
    (h1 : locateEa ea 0 w.bytes false s = .ok p1 u) (h2 : locateEa ea w.bytes w.bytes false u = .ok p2 v) :
    checkBounds w r ea s =
      if (BitVec.ofNat w.bits (v.mem.readAt p1)).toInt ≤ (s.regs.read w r).toInt ∧
        (s.regs.read w r).toInt ≤ (BitVec.ofNat w.bits (v.mem.readAt p2)).toInt
      then .ok () v else .error (.exn .br) v := by
  rw [checkBounds, M.bind_ok (getReg_apply ..), M.bind_ok (readParts_ok c h1 h2)]
  dsimp only
  rw [require_apply, ← Bool.decide_and]
  simp only [decide_eq_true_eq]

theorem Touches.locateDisplay (n count k : Nat) : Touches (locateDisplay n count k) := by
  induction count generalizing k with
  | zero => exact .pure _
  | succ c ih =>
    exact Touches.get.bind fun s => (Touches.segLocate _ _ _ _).bind fun _ => (Touches.pushLocate _ _).bind fun _ =>
      (ih _).bind fun _ => .pure _

/-- Memory with display pointers copied one after the other. -/
def Memory.copyAll (m : Memory) (xs : List (List Dword × List Dword)) : Memory :=
  xs.foldl (fun m x => m.writeAt x.2 (m.readAt x.1)) m

theorem Memory.read_copyAll_other {m : Memory} (xs : List (List Dword × List Dword)) {a : Dword}
    (h : a ∉ (xs.map Prod.snd).flatten) : (m.copyAll xs).read a.toNat = m.read a.toNat := by
  induction xs generalizing m with
  | nil => rfl
  | cons x xs ih =>
    rw [List.map_cons, List.flatten_cons, List.mem_append, not_or] at h
    exact (ih h.2).trans (read_writeAt_other _ _ h.1)

theorem Memory.wf_copyAll {m : Memory} (h : m.wf = true) (xs : List (List Dword × List Dword)) :
    (m.copyAll xs).wf = true := by
  induction xs generalizing m with
  | nil => exact h
  | cons x xs ih => exact ih (wf_writeAt _ _ h)

theorem copyDisplay_closed {s : State} (c : s.closed = true) (xs : List (List Dword × List Dword)) :
    ∃ q, copyDisplay xs s = .ok () { s with mem := s.mem.copyAll xs, prefetch := q } := by
  induction xs generalizing s with
  | nil => exact ⟨s.prefetch, rfl⟩
  | cons x xs ih =>
    obtain ⟨q, e⟩ := ih (s := s.putBytes x.2 (s.mem.readAt x.1)) (State.closed_putBytes _ _ c)
    rw [State.putBytes_eq] at e
    refine ⟨q, ?_⟩
    rw [copyDisplay, M.bind_ok (memRead_closed c x.1), M.bind_ok (memWrite_closed c x.2 _), State.putBytes_eq, e]
    rfl

theorem Touched.of_pushLocate {n k : Nat} {s u : State} {ps : List Dword} (h : pushLocate n k s = .ok ps u) :
    Touched s u := (Touches.pushLocate n k s).1 _ _ h

/-- Where the last push of ENTER goes: nowhere at level 0. -/
def locateLast (n deep : Nat) : M (List Dword) := if deep = 0 then pure [] else pushLocate n (deep + 1)

theorem Touched.of_locateLast {n deep : Nat} {s u : State} {ps : List Dword} (h : locateLast n deep s = .ok ps u) :
    Touched s u := by
  unfold locateLast at h
  split at h
  · cases h
    exact .refl s
  · exact .of_pushLocate h

/-- The model branches before it goes on. -/
theorem locateLast_bind {α : Type} {n deep : Nat} {s u : State} {ps : List Dword} (h : locateLast n deep s = .ok ps u)
    (f : List Dword → M α) :
    (if deep = 0 then pure [] >>= f else pushLocate n (deep + 1) >>= f) s = f ps u := by
  unfold locateLast at h
  split at h
  case isTrue hd =>
    rw [if_pos hd]
    exact M.bind_ok h f
  case isFalse hd =>
    rw [if_neg hd]
    exact M.bind_ok h f

/-- The registers ENTER leaves. -/
def State.entered (s : State) (w : Width) (down by_ : Dword) (frame : BitVec w.bits) : Regs :=
  ({ s.regs with esp := (s.moved by_).esp, ebp := s.displayEnd down } : Regs).write w .ebp frame

/-- How ENTER ends, its stores made. -/
theorem enter_finish {s y : State} (hr : y.regs = s.regs) (hs : y.segs = s.segs) (w : Width) (down by_ : Dword)
    (frame : BitVec w.bits) :
    (do
      modify fun u : State => { u with regs := { u.regs with ebp := s.displayEnd down } }
      setReg w .ebp frame
      moveStackPtr by_ : M Unit) y = .ok () { y with regs := s.entered w down by_ frame } := by
  let g : Regs := ({ s.regs with ebp := s.displayEnd down } : Regs).write w .ebp frame
  have e := State.moved_of_esp (s := s) (t := { y with regs := g }) hs (Regs.esp_write _ w frame (by decide)) by_
  have hg : s.entered w down by_ frame = { g with esp := (s.moved by_).esp } :=
    Regs.write_withEsp { s.regs with ebp := s.displayEnd down } _ w (r := .ebp) frame (by decide)
  rw [hg, ← e, M.bind_ok (M.modify_apply _ y), M.bind_ok (setReg_apply ..), moveStackPtr_moved, State.withReg, hr]

theorem enterFrame_ok {s u v t : State} {w : Width} {size : Word} {level : Byte} {first last : List Dword}
    {display : List (List Dword × List Dword)} (c : s.closed = true) (h1 : pushLocate w.bytes 1 s = .ok first u)
    (h2 : locateDisplay w.bytes (level.toNat % 32 - 1) 1 u = .ok display v)
    (h3 : locateLast w.bytes (level.toNat % 32) v = .ok last t) :
    let deep := level.toNat % 32
    let frame := s.stackWrap (s.stackPtr - BitVec.ofNat 32 w.bytes)
    ∃ q, enterFrame w size level s = .ok () { t with
      mem := ((t.mem.writeAt first (s.regs.read w .ebp).toNat).copyAll display).writeAt last frame.toNat, prefetch := q
      regs := s.entered w (BitVec.ofNat 32 (w.bytes * (deep - 1)))
        (-(BitVec.ofNat 32 (w.bytes * (if deep = 0 then 1 else deep + 1)) + size.setWidth 32))
        (frame.setWidth w.bits) } := by
  intro deep frame
  have hv := (Touched.of_pushLocate h1).trans ((Touches.locateDisplay _ _ _ u).1 _ _ h2)
  have h := hv.trans (Touched.of_locateLast h3)
  have hm : t.mem.wf = true := h.wf (s.closed_wf c)
  let m1 := t.mem.writeAt first (s.regs.read w .ebp).toNat
  have w1 : m1.wf = true := Memory.wf_writeAt _ _ hm
  have hmas : t.masters = [] := t.closed_masters (h.stays c)
  have hmap : t.map = [] := t.closed_map (h.stays c)
  have e1 := memWrite_closed (h.stays c) first (s.regs.read w .ebp).toNat
  rw [State.putBytes_eq] at e1
  have c1 : ({ t with mem := m1, prefetch := (t.putBytes first (s.regs.read w .ebp).toNat).prefetch } : State).closed =
      true := State.closed_iff.2 ⟨w1, hmas, hmap⟩
  obtain ⟨q, e2⟩ := copyDisplay_closed c1 display
  have c2 : ({ t with mem := m1.copyAll display, prefetch := q } : State).closed = true :=
    State.closed_iff.2 ⟨Memory.wf_copyAll w1 _, hmas, hmap⟩
  have e3 := memWrite_closed c2 last frame.toNat
  rw [State.putBytes_eq] at e3
  rw [enterFrame, M.get_bind_apply, M.bind_ok h1, M.bind_ok h2]
  dsimp only
  rw [locateLast_bind h3, M.bind_ok e1, M.bind_ok e2, M.bind_ok e3]
  exact ⟨_, enter_finish (y := { t with mem := (m1.copyAll display).writeAt last frame.toNat, prefetch := _ })
    h.regs h.segs _ _ _ _⟩

/-- LEAVE, its frame read. -/
theorem leaveFrame_ok {s u : State} {w : Width} {ps : List Dword} (c : s.closed = true)
    (hl : segLocate .ss (s.stackWrap s.regs.ebp) w.bytes false s = .ok ps u) :
    leaveFrame w s = .ok () { u with
      regs := ({ u.regs with esp := u.stackSet (s.stackWrap s.regs.ebp + BitVec.ofNat 32 w.bytes) } : Regs).write w .ebp
        (BitVec.ofNat w.bits (u.mem.readAt ps)) } := by
  have read : segRead .ss (s.stackWrap s.regs.ebp) w s = .ok (BitVec.ofNat w.bits (u.mem.readAt ps)) u := by
    rw [segRead, M.bind_ok hl, M.bind_ok (memRead_closed ((Touched.of_segLocate hl).stays c) ps)]
    rfl
  rw [leaveFrame, M.get_bind_apply, M.bind_ok read]
  rfl

/-- Settles O40. -/
theorem boundEnterLeaveComplete : Obligations.BoundEnterLeaveComplete := by
  intro s u v c
  refine ⟨fun r ea lo hi h1 h2 => ⟨fun hin => ?_, fun hout => ?_⟩, fun size level first display last t h1 => ?_,
    fun ps hl => ?_⟩
  · have h := (Touched.of_locateEa h1).trans (Touched.of_locateEa h2)
    have hb := (checkBounds_apply (r := r) c h1 h2).trans (if_pos hin)
    exact Sets.intro_eq rfl c h hb h.regs h.flags rfl
  · exact runSimple_exn ((checkBounds_apply c h1 h2).trans (if_neg hout))
  · intro deep frame down base pushed h2 h3
    have h3' : locateLast s.vWidth.bytes deep v = .ok last t := by
      unfold locateLast
      by_cases hd : deep = 0
      · rw [if_pos hd] at h3 ⊢
        obtain ⟨rfl, rfl⟩ := h3
        rfl
      · rw [if_neg hd] at h3 ⊢
        exact h3
    have hv := (Touched.of_pushLocate h1).trans ((Touches.locateDisplay _ _ _ u).1 _ _ h2)
    have h := hv.trans (Touched.of_locateLast h3')
    obtain ⟨q, hb⟩ := enterFrame_ok (size := size) c h1 h2 h3'
    refine stores_after (i := .enter size level) c rfl h hb fun a ha => ?_
    rw [List.mem_append, List.mem_append, not_or, not_or] at ha
    obtain ⟨⟨hf, hd⟩, hl⟩ := ha
    exact (Memory.read_writeAt_other _ _ hl).trans ((Memory.read_copyAll_other _ hd).trans
      (Memory.read_writeAt_other _ _ hf))
  · have h := Touched.of_segLocate hl
    refine Sets.intro_eq rfl c h (leaveFrame_ok c hl) ?_ h.flags rfl
    rw [h.regs, h.stackSet]

end Sys2Proof.Machine

/-! Loads of segment registers: obligations O26 and O27. -/

namespace Sys2Proof.Machine

/-! Instructions that store one number and write more than registers and flags. -/

/-- A meaning that ends in `x`, which is what the accesses made of `s'` but for registers, flags, EIP and one number
stored in located bytes. -/
theorem Leaves.written_in {s s' u x : State} {i : Instr} {body : M Done} {d : Done} {g : Regs} {f f' : Flags}
    {e : Dword} {ps : List Dword} {v : Nat} (he : exec i s = runInstr body s) (hd : d ≠ .silent)
    (ht : s.flags.tf = s'.flags.tf) (c : s'.closed = true) (h : Touched s' u) (hn : ps.Nodup)
    (hv : v < 256 ^ ps.length) (hb : body s = .ok d x)
    (hx : x = { u with regs := g, flags := f', eip := e, mem := u.mem.writeAt ps v, prefetch := x.prefetch,
                       free := x.free, dec := { u.dec with held := x.dec.held } })
    (hf : ({ f' with rf := if d = .plain then false else f'.rf } : Flags) = f) : Leaves s i s' g f e ps v :=
  Leaves.intro he hb hd ht c h (by rw [hx]) (fun a ha => by rw [hx]; exact Memory.read_writeAt_other ps _ ha)
    (by rw [hx]; exact Memory.readAt_writeAt_same (h.wf (s'.closed_wf c)) hn hv) (by rw [hx]) (by rw [hx]; exact hf)
    (by rw [hx])

/-- The same for an instruction that goes on to the next one. -/
theorem Leaves.written_simple_in {s s' u x : State} {i : Instr} {body : M Unit} {g : Regs} {f : Flags}
    {ps : List Dword} {v : Nat} (he : exec i s = runSimple body s) (ht : s.flags.tf = s'.flags.tf)
    (hi : s'.nextEip = s.nextEip) (c : s'.closed = true) (h : Touched s' u) (hn : ps.Nodup)
    (hv : v < 256 ^ ps.length) (hb : body s = .ok () x)
    (hx : x = { u with regs := g, flags := f, mem := u.mem.writeAt ps v, prefetch := x.prefetch,
                       free := x.free, dec := { u.dec with held := x.dec.held } }) :
    Leaves s i s' g f.settled s.nextEip ps v := by
  have hne : x.nextEip = s.nextEip := by rw [hx, ← hi]; exact h.nextEip
  refine Leaves.written_in (x := { x with eip := x.nextEip }) (d := .plain) he (by decide) ht c h hn hv
    (by rw [M.bind_ok hb]; rfl) ?_ rfl
  rw [hne]
  exact congrArg (fun y : State => { y with eip := s.nextEip }) hx

/-! What every load of a segment register does besides. -/

theorem realBase_eq (sel : Word) : realBase sel = sel.setWidth 32 * 16 :=
  BitVec.shiftLeft_eq_mul_twoPow (sel.setWidth 32) 4

theorem inhibitAfterSS_apply (sr : Sreg) (s : State) :
    inhibitAfterSS sr s = .ok () { s with inhibit := s.inhibit || decide (sr = .ss) } := by
  unfold inhibitAfterSS
  split
  case isTrue h =>
    rw [decide_eq_true h, Bool.or_true]
    rfl
  case isFalse h =>
    rw [decide_eq_false h, Bool.or_false]
    rfl

theorem State.moved_withSegs {s x : State} (h : x.regs = s.regs) (v : Dword) :
    x.moved v = ({ s with segs := x.segs } : State).moved v := by
  unfold moved stackSet stackPtr
  rw [h]

/-- What follows a load of a segment register in `s`: the general registers as `g` says, and the wait after SS. -/
def Follows (s : State) (rest : M Unit) (g : Segs → Regs) (wait : Bool) : Prop :=
  ∀ x : State, x.regs = s.regs → rest x = .ok () { x with regs := g x.segs, inhibit := x.inhibit || wait }

theorem popSregForm_runs {s : State} {i : Instr} {sr : Sreg} (h : PopSregForm i sr) :
    exec i s = runSimple (popSreg sr) s := by
  cases h <;> rfl

theorem farLoadForm_runs {s : State} {i : Instr} {sr : Sreg} {r : Reg} {ea : EA} (h : FarLoadForm r ea i sr) :
    exec i s = runSimple (loadPointer sr r ea) s := by
  cases h <;> rfl

theorem itemBytes_le (wide : Bool) : itemBytes wide ≤ 4096 := by cases wide <;> decide

theorem stackItem_zero {s u : State} {n : Nat} {ps : List Dword} (c : s.closed = true)
    (hl : segLocate .ss s.stackPtr n false s = .ok ps u) : stackItem n 0 s = .ok (u.mem.readAt ps) u := by
  rw [stackItem, M.bind_ok ((popLocate_zero _ _).trans hl), memRead_closed ((Touched.of_segLocate hl).stays c)]

/-- Every load of a segment register finds its selector, loads it, and then does the rest. -/
theorem sregLoad_runs {s u : State} {i : Instr} {sr : Sreg} {sel : Word} {g : Segs → Regs} {wait : Bool}
    (c : s.closed = true) (h : SregLoad s i sr sel u g wait) :
    Touched s u ∧ ∃ body rest, exec i s = runSimple body s ∧ Follows s rest g wait ∧
      body s = (loadSeg sr sel >>= fun _ => rest) u := by
  cases h
  case mov rm p hc h =>
    refine ⟨.of_locate h, moveToSreg sr rm, inhibitAfterSS sr, rfl, fun x hx => ?_, ?_⟩
    · rw [inhibitAfterSS_apply, ← hx]
    · rw [moveToSreg, M.bind_ok (readRm_ok c h)]
  case pop ps hi h =>
    refine ⟨.of_segLocate h, popSreg sr, do
      moveStackPtr (BitVec.ofNat 32 (itemBytes s.os32))
      inhibitAfterSS sr, popSregForm_runs hi, fun x hx => ?_, ?_⟩
    · rw [M.bind_ok (moveStackPtr_moved _ _), inhibitAfterSS_apply, State.moved_withSegs hx]
    · rw [popSreg, M.get_bind_apply, M.bind_ok (stackItem_zero c h)]
  case far r ea off hi h =>
    refine ⟨(Touches.readFar ea s).1 _ _ h, loadPointer sr r ea, setReg s.vWidth r (off.setWidth s.vWidth.bits),
      farLoadForm_runs hi, fun x hx => ?_, ?_⟩
    · rw [setReg_apply, Bool.or_false, ← hx]
      rfl
    · rw [loadPointer, M.get_bind_apply, M.bind_ok h]

theorem sregLoad_wait {s u : State} {i : Instr} {sr : Sreg} {sel : Word} {g : Segs → Regs} {wait : Bool}
    (h : SregLoad s i sr sel u g wait) (hs : sr ≠ .ss) : wait = false := by
  cases h with
  | mov | pop => exact decide_eq_false hs
  | far => rfl

/-! Outside Protected Mode. -/

theorem loadReal_eq (s : State) (old : SegReg) (sel : Word) :
    (if s.cr0.pe then SegReg.v86 sel else old.loadReal sel) = loaded8086 s old sel := by
  rw [loaded8086, SegReg.v86, SegReg.real, SegReg.loadReal, realBase_eq]

theorem loadSeg_real {u : State} (h : u.protMode = false) (sr : Sreg) (sel : Word) :
    loadSeg sr sel u = .ok () { u with segs := u.segs.set sr (loaded8086 u (u.segs.get sr) sel) } := by
  rw [loadSeg, M.get_bind_apply, if_neg (by rw [h]; decide), ← loadReal_eq]
  split <;> rfl

/-- Settles O26. -/
theorem loadSegmentOutsideProtectedMode : Obligations.LoadSegmentOutsideProtectedMode := by
  intro s u i sr sel g wait c hi hp segs
  obtain ⟨h, body, rest, he, hrest, hb⟩ := sregLoad_runs c hi
  have hb := hb.trans ((M.bind_ok (loadSeg_real (h.protMode.trans hp) sr sel) _).trans (hrest _ h.regs))
  obtain ⟨m, q, l, n, b, k, rfl⟩ := h.form c
  exact SetsIn.simple he hb rfl (by exact c) (h.over c segs s.cpl s.cr2 s.gdtr s.idtr s.ldtr s.tr _ s.nmiInService
    s.ioLog) rfl rfl rfl rfl

/-! In Protected Mode. -/

theorem descAddr_out {s : State} {sel : Word} (h : s.inTable sel = false) (f : Word → Exn) :
    descAddr sel f s = .error (.exn (f (selCode sel))) s := by
  rw [descAddr, M.get_bind_apply]
  rw [State.inTable] at h
  split
  case isTrue ht => exact require_fail (by rwa [if_pos ht] at h) _ _ _
  case isFalse ht => exact require_fail (by rwa [if_neg ht] at h) _ _ _

theorem findDesc_out {s : State} {sel : Word} (h : s.inTable sel = false) (f : Word → Exn) :
    findDesc sel f s = .error (.exn (f (selCode sel))) s := by
  rw [findDesc, M.bind_error (descAddr_out h f)]

theorem Accessed.touched {a : Dword} {d : Descriptor} {u t : State} {ps : List Dword} {x : Nat}
    (h : Accessed a d u ps x t) : Touched u t := by
  cases h with
  | already h => exact .refl u
  | now ps v h hl => exact .of_linLocate hl

theorem Accessed.bytes {a : Dword} {d : Descriptor} {u t : State} {ps : List Dword} {x : Nat}
    (h : Accessed a d u ps x t) : ps.Nodup ∧ x < 256 ^ ps.length := by
  cases h with
  | already h => exact ⟨List.nodup_nil, by decide⟩
  | now ps v h hl =>
    obtain ⟨hn, hd⟩ := linLocate_bytes (by decide) hl
    exact ⟨hd, by rw [hn]; exact (BitVec.ofNat 8 (t.mem.readAt ps) ||| 1).isLt⟩

theorem locateAccessed_ok {a : Dword} {d : Descriptor} {u t : State} {ps : List Dword} {x : Nat}
    (h : Accessed a d u ps x t) : locateAccessed a d u = .ok ps t := by
  cases h with
  | already h => exact congrFun (if_pos h) u
  | now ps v h hl => exact (congrFun (if_neg (by rw [h]; decide)) u).trans hl

/-- The A bit set after other stores: in the byte as it stands then. -/
theorem markAccessed_any {a : Dword} {d : Descriptor} {u t y : State} {ps : List Dword} {x : Nat}
    (h : Accessed a d u ps x t) (c : y.closed = true) :
    ∃ q, markAccessed ps y = .ok () { y with mem := y.mem.writeAt ps (y.mem.byteWith ps 1), prefetch := q } := by
  cases h with
  | already h => exact ⟨y.prefetch, rfl⟩
  | now ps v h hl =>
    have hne : ps.isEmpty = false := by
      obtain ⟨hn, -⟩ := linLocate_bytes (by decide) hl
      rw [List.isEmpty_eq_false_iff]
      exact fun hnil => by rw [hnil] at hn; cases hn
    have e := lockedModify_closed c ps fun v => (BitVec.ofNat 8 v ||| 1).toNat
    rw [State.putBytes_eq] at e
    exact ⟨_, (congrFun (if_neg (by rw [hne]; decide)) y).trans e⟩

theorem markAccessed_ok {a : Dword} {d : Descriptor} {u t : State} {ps : List Dword} {x : Nat} (c : t.closed = true)
    (h : Accessed a d u ps x t) :
    ∃ q, markAccessed ps t = .ok () { t with mem := t.mem.writeAt ps x, prefetch := q } := by
  obtain ⟨q, e⟩ := markAccessed_any h c
  cases h with
  | already h => exact ⟨q, e⟩
  | now ps v h hl => exact ⟨q, e⟩

theorem setAccessed_ok {a : Dword} {d : Descriptor} {u t : State} {ps : List Dword} {x : Nat} (c : u.closed = true)
    (h : Accessed a d u ps x t) :
    ∃ q, setAccessed a d u = .ok () { t with mem := t.mem.writeAt ps x, prefetch := q } := by
  obtain ⟨q, e⟩ := markAccessed_ok (h.touched.stays c) h
  exact ⟨q, by rw [setAccessed, M.bind_ok (locateAccessed_ok h), e]⟩

/-- The tests of a load of SS and what follows them. -/
theorem loadSS_checks {u v : State} {sel : Word} {a : Dword} {d : Descriptor} (cpl : BitVec 2)
    (hn : selNull sel = false) (hd : findDesc sel .gp u = .ok (a, d) v) :
    loadSS sel cpl u =
      if selRpl sel = cpl ∧ descIsStack d = true ∧ descDpl d = cpl then
        if descP d = true then (do
          setAccessed a d
          setSeg .ss (SegReg.ofDesc sel d) : M Unit) v
        else .error (.exn (.ss (selCode sel))) v
      else .error (.exn (.gp (selCode sel))) v := by
  rw [loadSS, require_pass (by rw [hn]; rfl), M.bind_ok hd]
  dsimp only
  rw [require_bind_apply, require_bind_apply, require_bind_apply, require_bind_apply]
  simp only [ite_and, beq_iff_eq]

/-- The tests of a load of a data segment register and what follows them. -/
theorem loadDataSeg_checks {u v : State} {sr : Sreg} {sel : Word} {a : Dword} {d : Descriptor} {f : Word → Exn}
    (hn : selNull sel = false) (hd : findDesc sel f u = .ok (a, d) v) :
    loadDataSeg sr sel f u =
      if (descS d && (!descE d || descW d)) = true ∧
        (descConforming d || (decide (u.cpl ≤ descDpl d) && decide (selRpl sel ≤ descDpl d))) = true then
        if descP d = true then (do
          setAccessed a d
          setSeg sr (SegReg.ofDesc sel d) : M Unit) v
        else .error (.exn (.np (selCode sel))) v
      else .error (.exn (f (selCode sel))) v := by
  rw [loadDataSeg, M.get_bind_apply, if_neg (by rw [hn]; decide), M.bind_ok hd]
  dsimp only
  rw [require_bind_apply, require_bind_apply, require_bind_apply]
  simp only [ite_and]

/-- Whether a descriptor is of the right kind for a segment register (20_memory.md R135, R136). -/
def RightKind (sr : Sreg) (d : Descriptor) : Prop :=
  if sr = .ss then descS d = true ∧ descE d = false ∧ descW d = true
  else descS d = true ∧ (descE d = false ∨ descW d = true)

/-- Whether the privileges allow its load. -/
def LoadVisible (cpl : BitVec 2) (sr : Sreg) (sel : Word) (d : Descriptor) : Prop :=
  if sr = .ss then sel.extractLsb' 0 2 = cpl ∧ descDpl d = cpl
  else (descE d = true ∧ descC d = true) ∨
    (cpl.toNat ≤ (descDpl d).toNat ∧ (sel.extractLsb' 0 2 : BitVec 2).toNat ≤ (descDpl d).toNat)

open Classical in
/-- A load in Protected Mode of a selector whose descriptor was read. -/
theorem loadSeg_checks {u v : State} {sr : Sreg} {sel : Word} {a : Dword} {d : Descriptor} (hp : u.protMode = true)
    (hn : selNull sel = false) (hd : findDesc sel .gp u = .ok (a, d) v) :
    loadSeg sr sel u =
      if RightKind sr d ∧ LoadVisible u.cpl sr sel d then
        if descP d = true then (do
          setAccessed a d
          setSeg sr (SegReg.ofDesc sel d) : M Unit) v
        else .error (.exn (if sr = .ss then .ss (selCode sel) else .np (selCode sel))) v
      else .error (.exn (.gp (selCode sel))) v := by
  rw [loadSeg, M.get_bind_apply, if_pos hp]
  by_cases hs : sr = .ss
  · subst hs
    rw [if_pos rfl, if_pos rfl, loadSS_checks u.cpl hn hd]
    refine if_congr ?_ rfl rfl
    simp only [RightKind, LoadVisible, descIsStack, selRpl, if_pos, Bool.and_eq_true, Bool.not_eq_true']
    tauto
  · rw [if_neg hs, if_neg hs, loadDataSeg_checks hn hd]
    refine if_congr ?_ rfl rfl
    simp only [RightKind, LoadVisible, descConforming, selRpl, if_neg hs, Bool.and_eq_true, Bool.or_eq_true,
      Bool.not_eq_true', decide_eq_true_eq, BitVec.le_def]

theorem loadSeg_null {u : State} {sr : Sreg} {sel : Word} (hp : u.protMode = true) (hn : selNull sel = true)
    (hs : sr ≠ .ss) : loadSeg sr sel u =
      .ok () { u with segs := u.segs.set sr { u.segs.get sr with sel := sel, valid := false } } := by
  rw [loadSeg, M.get_bind_apply, if_pos hp, if_neg hs, loadDataSeg, M.get_bind_apply, if_pos hn]
  rfl

theorem loadSeg_null_ss {u : State} {sel : Word} (hp : u.protMode = true) (hn : selNull sel = true) :
    loadSeg .ss sel u = .error (.exn (.gp 0)) u := by
  rw [loadSeg, M.get_bind_apply, if_pos hp, if_pos rfl, loadSS, require_fail (by rw [hn]; rfl)]

theorem loadSeg_out {u : State} {sr : Sreg} {sel : Word} (hp : u.protMode = true) (hn : selNull sel = false)
    (h : u.inTable sel = false) : loadSeg sr sel u = .error (.exn (.gp (selCode sel))) u := by
  rw [loadSeg, M.get_bind_apply, if_pos hp]
  split
  · rw [loadSS, require_pass (by rw [hn]; rfl), M.bind_error (findDesc_out h _)]
  · rw [loadDataSeg, M.get_bind_apply, if_neg (by rw [hn]; decide), M.bind_error (findDesc_out h _)]

theorem inTable_false {u : State} {sel : Word}
    (h : ¬ if sel.getLsbD 2 then u.ldtr.valid = true ∧ 8 * (sel.toNat / 8) + 7 ≤ u.ldtr.limit.toNat
      else 8 * (sel.toNat / 8) + 7 ≤ u.gdtr.limit.toNat) : u.inTable sel = false := by
  rw [← Bool.not_eq_true, inTable_iff]
  exact h

/-- Settles O27. -/
theorem loadSegmentChecksDescriptor : Obligations.LoadSegmentChecksDescriptor := by
  intro s u i sr sel g wait c hi hp rpl null code
  obtain ⟨h, body, rest, he, hrest, hb⟩ := sregLoad_runs c hi
  have hpu : u.protMode = true := h.protMode.trans hp
  have isNull : null → selNull sel = true := fun hn => by rw [selNull_eq, decide_eq_true hn]
  have notNull : ¬ null → selNull sel = false := fun hn => by rw [selNull_eq, decide_eq_false hn]
  have raises : ∀ {e : Exn} {v : State}, loadSeg sr sel u = .error (.exn e) v → exec i s = takeExn s v e :=
    fun hl => he.trans (runSimple_exn (hb.trans (M.bind_error hl _)))
  refine ⟨fun hn hs => ?_, fun hn hs => ?_, fun hn ho => ?_, fun hn a d v hd => ?_⟩
  · have hb := hb.trans ((M.bind_ok (loadSeg_null hpu (isNull hn) hs) _).trans (hrest _ h.regs))
    rw [sregLoad_wait hi hs, Bool.or_false] at hb
    obtain ⟨m, q, l, n, b, k, rfl⟩ := h.form c
    exact SetsIn.simple he hb rfl (by exact c) (h.over c _ s.cpl s.cr2 s.gdtr s.idtr s.ldtr s.tr s.inhibit
      s.nmiInService s.ioLog) rfl rfl rfl rfl
  · subst hs
    exact raises (loadSeg_null_ss hpu (isNull hn))
  · exact raises (loadSeg_out hpu (notNull hn) (inTable_false (by rw [h.ldtr, h.gdtr]; exact ho)))
  · have load := loadSeg_checks (sr := sr) hpu (notNull hn) hd
    rw [h.cpl] at load
    refine ⟨fun hbad => ?_, fun hr hv hpr => ?_, fun hr hv hpr ps x t ha => ?_⟩
    · exact raises (load.trans (if_neg hbad))
    · exact raises (load.trans ((if_pos ⟨hr, hv⟩).trans (if_neg (by rw [hpr]; decide))))
    · have hv' := h.trans (Touched.of_findDesc hd)
      have ht := hv'.trans ha.touched
      obtain ⟨hnd, hlt⟩ := ha.bytes
      obtain ⟨q, hq⟩ := setAccessed_ok (hv'.stays c) ha
      have hl := load.trans ((if_pos ⟨hr, hv⟩).trans ((if_pos hpr).trans (M.bind_ok hq _)))
      have hb := hb.trans ((M.bind_ok hl _).trans (hrest _ ht.regs))
      obtain ⟨m, q', l, n, b, k, rfl⟩ := ht.form c
      exact Leaves.written_simple_in he rfl rfl (by exact c) (ht.over c _ s.cpl s.cr2 s.gdtr s.idtr s.ldtr s.tr _
        s.nmiInService s.ioLog) hnd hlt hb rfl

end Sys2Proof.Machine

/-! Transfers between segments: obligations O34 to O36. -/

namespace Sys2Proof.Machine

/-! Stores, with what else an instruction writes. -/

/-- A meaning that ends in `x`, which is what the accesses made of `s'` but for registers, flags, EIP and memory. -/
theorem stores_after_in {s s' u x : State} {i : Instr} {body : M Done} {d : Done} {g : Regs} {f f' : Flags}
    {e : Dword} {m : Memory} {stored : List Dword} (he : exec i s = runInstr body s) (hb : body s = .ok d x)
    (hd : d ≠ .silent) (ht : s.flags.tf = s'.flags.tf) (c : s'.closed = true) (h : Touched s' u)
    (hx : x = { u with regs := g, flags := f', eip := e, mem := m, prefetch := x.prefetch, free := x.free,
                       dec := { u.dec with held := x.dec.held } })
    (hm : ∀ a : Dword, a ∉ stored → m.read a.toNat = u.mem.read a.toNat)
    (hf : ({ f' with rf := if d = .plain then false else f'.rf } : Flags) = f) :
    ∃ t, exec i s = .next t ∧ After s' t g f e stored ∧ t.mem = m := by
  have hmem : x.mem = m := by rw [hx]
  refine ⟨s.finish x d, he.trans (runInstr_ok hb), ?_, (State.finish_mem ..).trans hmem⟩
  have ha : After s' (s'.finish x d) x.regs _ x.eip stored := After.intro c h d hd (by rw [hx]) fun a ha => by
    rw [hmem]
    exact hm a ha
  have hg : x.regs = g := by rw [hx]
  have hfl : x.flags = f' := by rw [hx]
  have hi : x.eip = e := by rw [hx]
  rw [hg, hfl, hi, hf] at ha
  rwa [show s.finish x d = s'.finish x d by simp only [State.finish, ht]]

/-! Room on the stack. -/

theorem segLocate_check {sr : Sreg} {off : Dword} {n : Nat} {write : Bool} {s u : State} {ps : List Dword}
    (h : segLocate sr off n write s = .ok ps u) : segCheck (s.segs.get sr) (segFault sr) off n write = none := by
  rw [segLocate_apply] at h
  split at h
  · cases h
  · assumption

theorem Touched.pushFault {s u : State} (h : Touched s u) (n k : Nat) : u.pushFault n k = s.pushFault n k := by
  rw [State.pushFault, State.pushFault, h.segs, h.stackWrap, h.stackPtr]

/-- Pushes that were located have room. -/
theorem pushFault_of_locatePushes {n count k : Nat} {s u : State} {ls : List (List Dword)}
    (h : locatePushes n count k s = .ok ls u) : ∀ j < count, s.pushFault n (k + j) = none := by
  induction count generalizing k s u ls with
  | zero => exact fun j hj => absurd hj (Nat.not_lt_zero j)
  | succ c ih =>
    intro j hj
    obtain ⟨p, v, hp, h⟩ := M.bind_eq_ok h
    obtain ⟨ps, w, hps, -⟩ := M.bind_eq_ok h
    have hv := Touched.of_pushLocate hp
    cases j with
    | zero =>
      rw [pushLocate_apply] at hp
      exact segLocate_check hp
    | succ j =>
      rw [← hv.pushFault, show k + (j + 1) = k + 1 + j by omega]
      exact ih hps j (by omega)

theorem roomFault_of_locatePushes {n count : Nat} {s u : State} {ls : List (List Dword)}
    (h : locatePushes n count 1 s = .ok ls u) : s.roomFault n count = none := by
  rw [State.roomFault, List.findSome?_eq_none_iff]
  intro k hk
  rw [Nat.add_comm]
  exact pushFault_of_locatePushes h k (List.mem_range.1 hk)

theorem requireRoom_pass {s : State} {n count : Nat} (h : s.roomFault n count = none) :
    requireRoom n count s = .ok () s := by
  rw [requireRoom, M.get_bind_apply, h]
  rfl

/-- A selector in a slot of an item: the upper half of a 32-bit slot is drawn. -/
theorem selectorSlot_apply (wide : Bool) (sel : Word) (s : State) : ∃ hi, (wide = false → hi = 0) ∧ hi < 65536 ∧
    selectorSlot wide sel s = .ok (hi * 65536 + sel.toNat) { s with free := s.free + wide.toNat } := by
  cases wide with
  | false => exact ⟨0, fun _ => rfl, by decide, by rw [Nat.zero_mul, Nat.zero_add]; rfl⟩
  | true =>
    let hi : Word := (Config.freeValue s.free).setWidth 16
    refine ⟨hi.toNat, fun h => absurd h (by decide), hi.isLt, ?_⟩
    have hn : (hi ++ sel).toNat = hi.toNat * 65536 + sel.toNat := by
      rw [toNat_append_eq, Nat.mul_comm]
      rfl
    rw [← hn]
    rfl

/-! Pointers. -/

/-- What the operand size leaves of an offset that has only its bytes. -/
theorem osWrap_readFar {s u : State} {ea : EA} {sel : Word} {off : Dword} (c : s.closed = true)
    (h : readFar ea s = .ok (sel, off) u) : s.osWrap off = off := by
  unfold readFar at h
  rw [M.get_bind_apply] at h
  obtain ⟨⟨x, y⟩, v, hp, h⟩ := M.bind_eq_ok h
  unfold readParts at hp
  obtain ⟨p1, w, h1, hp⟩ := M.bind_eq_ok hp
  obtain ⟨p2, t, h2, hp⟩ := M.bind_eq_ok hp
  have ct := ((Touched.of_locateEa h1).trans (Touched.of_locateEa h2)).stays c
  rw [M.bind_ok (memRead_closed ct p1), M.bind_ok (memRead_closed ct p2)] at hp
  cases hp
  cases h
  have hl : u.mem.readAt p1 < 256 ^ s.vWidth.bytes := by
    unfold locateEa at h1
    rw [M.get_bind_apply] at h1
    rw [← (segLocate_bytes (bytes_le _) h1).1]
    exact Memory.readAt_lt _ _
  have hle : s.vWidth.bits ≤ 32 := by cases s.vWidth <;> decide
  rw [osWrap_eq]
  apply BitVec.eq_of_toNat_eq
  rw [← two_pow_bits] at hl
  have h32 : 2 ^ s.vWidth.bits ≤ 2 ^ 32 := Nat.pow_le_pow_right (by decide) hle
  rw [BitVec.toNat_setWidth, BitVec.toNat_setWidth, BitVec.toNat_ofNat, Nat.mod_eq_of_lt (hl.trans_le h32),
    Nat.mod_eq_of_lt hl, Nat.mod_eq_of_lt (hl.trans_le h32)]

/-- A far JMP or CALL, its pointer known. -/
def farBody (kind : FarKind) (sel : Word) (off : Dword) : M Done :=
  match kind with
  | .jmp => jumpFar sel off
  | .call => callFar sel off

theorem farForm_runs {s u : State} {kind : FarKind} {i : Instr} {sel : Word} {off : Dword} (c : s.closed = true)
    (h : FarForm s kind i sel off u) : Touched s u ∧ ∃ body raw, exec i s = runInstr body s ∧
      body s = farBody kind sel raw u ∧ s.osWrap raw = off := by
  cases h
  case jmp raw => exact ⟨.refl s, jumpFar sel raw, raw, rfl, rfl, osWrap_eq _ _⟩
  case call raw => exact ⟨.refl s, callFar sel raw, raw, rfl, rfl, osWrap_eq _ _⟩
  case jmpM ea h =>
    exact ⟨(Touches.readFar ea s).1 _ _ h, jumpFarM ea, off, rfl, M.bind_ok h _, osWrap_readFar c h⟩
  case callM ea h =>
    exact ⟨(Touches.readFar ea s).1 _ _ h, callFarM ea, off, rfl, M.bind_ok h _, osWrap_readFar c h⟩

theorem farRetForm_runs {s : State} {i : Instr} {more : Word} (h : FarRetForm i more) :
    exec i s = runInstr (returnFar more) s := by
  cases h <;> rfl

/-! Outside Protected Mode. -/

theorem farLoad8086_in {s : State} {sel : Word} {off : Dword} (h : off ≤ s.segs.cs.limit) :
    farLoad8086 sel off s = .ok () { s with
      segs := { s.segs with cs := loaded8086 s s.segs.cs sel }, eip := off, prefetch := [] } := by
  rw [farLoad8086, M.get_bind_apply, require_pass (decide_eq_true h), ← loadReal_eq]
  rfl

theorem farLoad8086_out {s : State} {sel : Word} {off : Dword} (h : s.segs.cs.limit < off) :
    farLoad8086 sel off s = .error (.exn (.gp 0)) s := by
  have hle : ¬ off ≤ s.segs.cs.limit := fun hle => absurd (BitVec.le_def.1 hle) (not_le.2 (BitVec.lt_def.1 h))
  rw [farLoad8086, M.get_bind_apply, require_fail (decide_eq_false hle)]

theorem Touched.osWrap {s u : State} (h : Touched s u) (v : Dword) : u.osWrap v = s.osWrap v := by
  rw [State.osWrap, State.osWrap, h.os32]

theorem requireStack_pass {s : State} {n : Nat} (h : segCheck s.segs.ss (.ss 0) s.stackPtr n false = none) :
    requireStack n s = .ok () s := by
  rw [requireStack, M.get_bind_apply, h]
  rfl

theorem requireStack_raises {s : State} {n : Nat} {e : Exn}
    (h : segCheck s.segs.ss (.ss 0) s.stackPtr n false = some e) : requireStack n s = .error (.exn e) s := by
  rw [requireStack, M.get_bind_apply, h]
  rfl

/-- CALL far outside Protected Mode pushes CS and EIP and goes on at the pointer. -/
theorem callFar_in {s v : State} {sel : Word} {raw : Dword} {p1 p2 : List Dword} (c : s.closed = true)
    (hp : s.protMode = false) (hle : s.osWrap raw ≤ s.segs.cs.limit)
    (hl : locatePushes (itemBytes s.os32) 2 1 { s with free := s.free + s.os32.toNat } = .ok [p1, p2] v) :
    ∃ hi, (s.os32 = false → hi = 0) ∧ hi < 65536 ∧ callFar sel raw s = .ok .plain { v with
      mem := (v.mem.writeAt p1 (hi * 65536 + s.segs.cs.sel.toNat)).writeAt p2 s.nextEip.toNat, prefetch := []
      regs := s.moved (-(BitVec.ofNat 32 (itemBytes s.os32 * 2)))
      segs := { s.segs with cs := loaded8086 s s.segs.cs sel }, eip := s.osWrap raw } := by
  obtain ⟨hi, h0, hlt, slot⟩ := selectorSlot_apply s.os32 s.segs.cs.sel s
  refine ⟨hi, h0, hlt, ?_⟩
  have room : requireRoom (itemBytes s.os32) 2 s = .ok () s := requireRoom_pass (roomFault_of_locatePushes (s :=
    { s with free := s.free + s.os32.toNat }) hl)
  obtain ⟨q, push⟩ := pushAll_ok (vs := [hi * 65536 + s.segs.cs.sel.toNat, s.nextEip.toNat]) (by exact c) hl
  obtain ⟨m, q', l, n, b, k, rfl⟩ := (Touched.of_locatePushes hl).form c
  rw [callFar, M.get_bind_apply, hp, if_neg (by decide), M.bind_ok (requireInCS_ok hle), M.bind_ok room,
    M.bind_ok slot, M.bind_ok push, M.bind_ok (farLoad8086_in (by exact hle))]
  rfl

theorem callFar_out {s : State} {sel : Word} {raw : Dword} (hp : s.protMode = false)
    (hlt : s.segs.cs.limit < s.osWrap raw) : callFar sel raw s = .error (.exn (.gp 0)) s := by
  rw [callFar, M.get_bind_apply, hp, if_neg (by decide), M.bind_error (requireInCS_raises hlt)]

theorem jumpFar_in {s : State} {sel : Word} {raw : Dword} (hp : s.protMode = false)
    (hle : s.osWrap raw ≤ s.segs.cs.limit) : jumpFar sel raw s = .ok .plain { s with
      segs := { s.segs with cs := loaded8086 s s.segs.cs sel }, eip := s.osWrap raw, prefetch := [] } := by
  rw [jumpFar, M.get_bind_apply, hp, if_neg (by decide), M.bind_ok (farLoad8086_in hle)]
  rfl

theorem jumpFar_out {s : State} {sel : Word} {raw : Dword} (hp : s.protMode = false)
    (hlt : s.segs.cs.limit < s.osWrap raw) : jumpFar sel raw s = .error (.exn (.gp 0)) s := by
  rw [jumpFar, M.get_bind_apply, hp, if_neg (by decide), M.bind_error (farLoad8086_out hlt)]

/-- RET far, its two items located. -/
theorem returnFar_items {s u : State} {more : Word} {offAt selAt : List Dword} (c : s.closed = true)
    (hroom : segCheck s.segs.ss (.ss 0) s.stackPtr (2 * itemBytes s.os32) false = none)
    (hl : locateItems (itemBytes s.os32) 2 0 s = .ok [offAt, selAt] u) :
    returnFar more s = ((if s.protMode then
        returnCS (BitVec.ofNat 16 (u.mem.readAt selAt)) (BitVec.ofNat 32 (u.mem.readAt offAt)) 2 more.toNat
      else do
        farLoad8086 (BitVec.ofNat 16 (u.mem.readAt selAt)) (BitVec.ofNat 32 (u.mem.readAt offAt))
        moveStackPtr (BitVec.ofNat 32 (2 * itemBytes s.os32 + more.toNat))) >>= fun _ => pure Done.plain) u := by
  rw [returnFar, M.get_bind_apply, M.bind_ok (requireStack_pass hroom), M.bind_ok (stackItems_closed c hl)]
  split
  case isTrue => rfl
  case isFalse =>
    rw [bind_assoc]
    rfl

theorem returnFar_room {s : State} {more : Word} {e : Exn}
    (h : segCheck s.segs.ss (.ss 0) s.stackPtr (2 * itemBytes s.os32) false = some e) :
    returnFar more s = .error (.exn e) s := by
  rw [returnFar, M.get_bind_apply, M.bind_error (requireStack_raises h)]

theorem Touched.of_locateItems {n count k : Nat} {s u : State} {ls : List (List Dword)}
    (h : locateItems n count k s = .ok ls u) : Touched s u := (Touches.locateItems n count k s).1 _ _ h

/-- Settles O34. -/
theorem farTransfersOutsideProtectedMode : Obligations.FarTransfersOutsideProtectedMode := by
  intro s u c hp z inCS
  refine ⟨fun i sel off hi => ⟨fun hle => ?_, fun hlt => ?_⟩,
    fun i sel off hi => ⟨fun hlt => ?_, fun hle p1 p2 v hl => ?_⟩,
    fun i more hi => ⟨fun e he => ?_, fun hroom offAt selAt hl => ⟨fun hle => ?_, fun hlt => ?_⟩⟩⟩
  · obtain ⟨h, body, raw, he, hb, rfl⟩ := farForm_runs c hi
    obtain ⟨m, q, l, n, b, k, rfl⟩ := h.form c
    exact Leaves.intro_none he (hb.trans (jumpFar_in hp hle)) (by decide) rfl (by exact c)
      (h.over c _ s.cpl s.cr2 s.gdtr s.idtr s.ldtr s.tr s.inhibit s.nmiInService s.ioLog) rfl rfl rfl rfl
  · obtain ⟨h, body, raw, he, hb, rfl⟩ := farForm_runs c hi
    obtain ⟨m, q, l, n, b, k, rfl⟩ := h.form c
    exact he.trans (runInstr_exn (hb.trans (jumpFar_out hp hlt)))
  · obtain ⟨h, body, raw, he, hb, rfl⟩ := farForm_runs c hi
    obtain ⟨m, q, l, n, b, k, rfl⟩ := h.form c
    exact he.trans (runInstr_exn (hb.trans (callFar_out hp hlt)))
  · obtain ⟨h, body, raw, he, hb, rfl⟩ := farForm_runs c hi
    have cu := h.stays c
    have hv := h.trans (Touched.of_locatePushes hl).undraw
    have hlv := (Touched.of_locatePushes hl).form cu
    obtain ⟨m, q, l, n, b, k, rfl⟩ := h.form c
    obtain ⟨x, h0, hx, hcall⟩ := callFar_in (sel := sel) cu hp hle hl
    obtain ⟨m', q', l', n', b', k', rfl⟩ := hlv
    obtain ⟨t, ht, ha, hm⟩ := stores_after_in (s' := inCS sel) (stored := p1 ++ p2) he (hb.trans hcall) (by decide) rfl
      (by exact c) (hv.over c _ s.cpl s.cr2 s.gdtr s.idtr s.ldtr s.tr s.inhibit s.nmiInService s.ioLog) rfl
      (fun a ha => by
        rw [List.mem_append, not_or] at ha
        exact (Memory.read_writeAt_other _ _ ha.2).trans (Memory.read_writeAt_other _ _ ha.1)) rfl
    exact ⟨t, x, h0, hx, ht, ha, hm⟩
  · exact (farRetForm_runs hi).trans (runInstr_exn (returnFar_room he))
  · have h := Touched.of_locateItems hl
    have hb := returnFar_items (more := more) c hroom hl
    rw [hp, if_neg (by decide), bind_assoc] at hb
    have hb := hb.trans (M.bind_ok (farLoad8086_in (by rw [h.segs]; exact hle)) _)
    obtain ⟨m, q, l, n, b, k, rfl⟩ := h.form c
    exact Leaves.intro_none (farRetForm_runs hi) hb (by decide) rfl (by exact c) (h.over c _ s.cpl s.cr2 s.gdtr s.idtr
      s.ldtr s.tr s.inhibit s.nmiInService s.ioLog) rfl rfl rfl rfl
  · have hb := returnFar_items (more := more) c hroom hl
    rw [hp, if_neg (by decide), bind_assoc,
      M.bind_error (farLoad8086_out (by rw [(Touched.of_locateItems hl).segs]; exact hlt))] at hb
    exact (farRetForm_runs hi).trans (runInstr_exn hb)

/-! Transfers at the same level in Protected Mode. -/

/-- CS as a transfer at the same level leaves it. -/
def State.committed (s : State) (sel : Word) (d : Descriptor) : SegReg :=
  described (sel &&& 0xFFFC ||| s.cpl.setWidth 16) d

theorem commitCS_apply (sel : Word) (d : Descriptor) (s : State) :
    commitCS sel d s.cpl s = .ok () { s with segs := { s.segs with cs := s.committed sel d } } := rfl

theorem not_le_of_bvlt {x y : Dword} (h : x < y) : ¬ y ≤ x :=
  fun hle => absurd (BitVec.le_def.1 hle) (not_le.2 (BitVec.lt_def.1 h))

section
variable {w : State} {n : Nat} {sel : Word} {a : Dword} {d : Descriptor} {off : Dword}

theorem farSameLevel_jmp_out (h : descLimit d < off) :
    farSameLevel .jmp n sel a d off w = .error (.exn (.gp 0)) w := by
  rw [farSameLevel, M.get_bind_apply]
  simp only [reduceCtorEq, if_false]
  rw [require_fail (decide_eq_false (not_le_of_bvlt h))]

theorem farSameLevel_jmp_in {t : State} {ps : List Dword} {x : Nat} (c : w.closed = true) (h : off ≤ descLimit d)
    (ha : Accessed a d w ps x t) : farSameLevel .jmp n sel a d off w = .ok .plain { t with
      mem := t.mem.writeAt ps x, segs := { w.segs with cs := w.committed sel d }, eip := off, prefetch := [] } := by
  have ht := ha.touched
  obtain ⟨q, mark⟩ := markAccessed_ok (ht.stays c) ha
  have loc := locateAccessed_ok ha
  obtain ⟨m, q', l, k, b, e, rfl⟩ := ht.form c
  rw [farSameLevel, M.get_bind_apply]
  simp only [reduceCtorEq, if_false]
  rw [require_pass (decide_eq_true h), M.pure_bind_apply, M.bind_ok loc, M.bind_ok mark]
  rfl

/-- CALL at the same level: the two items pushed, then the A bit. -/
theorem farSameLevel_call {v t : State} {p1 p2 ps : List Dword} {x : Nat} (c : w.closed = true)
    (h : off ≤ descLimit d) (hl : locatePushes n 2 1 w = .ok [p1, p2] v) (ha : Accessed a d v ps x t) :
    ∃ hi, (n = 2 → hi = 0) ∧ hi < 65536 ∧
      let m := (t.mem.writeAt p1 (hi * 65536 + w.segs.cs.sel.toNat)).writeAt p2 w.nextEip.toNat
      farSameLevel .call n sel a d off w = .ok .plain { t with
        mem := m.writeAt ps (m.byteWith ps 1), free := t.free + (decide (n = 4)).toNat
        regs := w.moved (-(BitVec.ofNat 32 (2 * n)))
        segs := { w.segs with cs := w.committed sel d }, eip := off, prefetch := [] } := by
  have hv := Touched.of_locatePushes hl
  have ht := hv.trans ha.touched
  have loc := locateAccessed_ok ha
  obtain ⟨hi, h0, hlt, slot⟩ := selectorSlot_apply (decide (n = 4)) w.segs.cs.sel t
  refine ⟨hi, fun h2 => h0 (by rw [h2]; rfl), hlt, ?_⟩
  intro m
  have ct := ht.stays c
  obtain ⟨q, store⟩ := memWriteAll_closed (s := { t with free := t.free + (decide (n = 4)).toNat }) (by exact ct)
    [p1, p2] [hi * 65536 + w.segs.cs.sel.toNat, w.nextEip.toNat]
  have cy : ({ t with mem := m, prefetch := q, free := t.free + (decide (n = 4)).toNat
                      regs := w.moved (-(BitVec.ofNat 32 (2 * n))) } : State).closed = true :=
    State.closed_iff.2 ⟨Memory.wf_writeAt _ _ (Memory.wf_writeAt _ _ (t.closed_wf ct)), t.closed_masters ct,
      t.closed_map ct⟩
  obtain ⟨q', mark⟩ := markAccessed_any ha cy
  rw [farSameLevel, M.get_bind_apply]
  simp only [if_true]
  rw [M.bind_ok (requireRoom_pass (roomFault_of_locatePushes hl)), require_pass (decide_eq_true h), M.bind_ok hl,
    M.bind_ok loc, M.bind_ok slot, M.bind_ok store, M.bind_ok (moveStackPtr_moved _ _)]
  obtain ⟨m', q'', l, k, b, e, rfl⟩ := ht.form c
  exact (M.bind_ok mark _).trans rfl

end

/-- A transfer found to stay at its level does what the rule says. -/
theorem farSameLevel_enters {s w : State} {kind : FarKind} {i : Instr} {body : M Done} {n : Nat} {sel : Word}
    {a : Dword} {d : Descriptor} {off : Dword} (c : s.closed = true) (h : Touched s w) (he : exec i s = runInstr body s)
    (hb : body s = farSameLevel kind n sel a d off w) : EntersSameLevel s w kind i n sel a d off := by
  refine ⟨fun hk hlt => ?_, fun hk hle ps x t ha => ?_, fun hk hle p1 p2 ps x v t hl ha => ?_⟩
  · subst hk
    exact he.trans (runInstr_exn (hb.trans (farSameLevel_jmp_out hlt)))
  · subst hk
    have ht := h.trans ha.touched
    obtain ⟨hn, hx⟩ := ha.bytes
    have hb := hb.trans (farSameLevel_jmp_in (h.stays c) hle ha)
    obtain ⟨m', q', l', k', b', e', rfl⟩ := h.form c
    obtain ⟨m, q, l, k, b, e, rfl⟩ := ht.form c
    exact Leaves.written_in he (by decide) rfl (by exact c) (ht.over c _ s.cpl s.cr2 s.gdtr s.idtr s.ldtr s.tr s.inhibit
      s.nmiInService s.ioLog) hn hx hb rfl rfl
  · subst hk
    have ht := h.trans ((Touched.of_locatePushes hl).trans ha.touched)
    obtain ⟨hi, h0, hlt, hcall⟩ := farSameLevel_call (sel := sel) (h.stays c) hle hl ha
    have hb := hb.trans hcall
    obtain ⟨m', q', l', k', b', e', rfl⟩ := h.form c
    obtain ⟨m, q, l, k, b, e, rfl⟩ := ht.form c
    obtain ⟨r, hr, hafter, hm⟩ := stores_after_in (s' := { s with segs := { s.segs with cs := s.committed sel d } })
      (stored := ps ++ p1 ++ p2) (g := s.moved (-(BitVec.ofNat 32 (2 * n)))) he hb (by decide) rfl (by exact c)
      (ht.over c _ s.cpl s.cr2 s.gdtr s.idtr s.ldtr s.tr s.inhibit s.nmiInService s.ioLog) rfl
      (fun y hy => by
        rw [List.mem_append, List.mem_append, not_or, not_or] at hy
        obtain ⟨⟨hps, hp1⟩, hp2⟩ := hy
        exact (Memory.read_writeAt_other _ _ hps).trans ((Memory.read_writeAt_other _ _ hp2).trans
          (Memory.read_writeAt_other _ _ hp1))) rfl
    exact ⟨r, hi, h0, hlt, hr, hafter, hm⟩

theorem farBody_protected {s : State} (hp : s.protMode = true) (kind : FarKind) (sel : Word) (off : Dword) :
    farBody kind sel off s = farTransfer kind sel off s := by
  cases kind with
  | jmp => exact (M.get_bind_apply _ s).trans (congrFun (if_pos hp) s)
  | call => exact (M.get_bind_apply _ s).trans (congrFun (if_pos hp) s)

section
variable {s v : State} {kind : FarKind} {sel : Word} {raw a : Dword} {d : Descriptor}

theorem farTransfer_null (hn : selNull sel = true) : farTransfer kind sel raw s = .error (.exn (.gp 0)) s := by
  rw [farTransfer, require_fail (by rw [hn]; rfl)]

/-- Whether DirectCode lets the transfer through (45_control_transfer.md R481). -/
def CodeAllowed (cpl : BitVec 2) (sel : Word) (d : Descriptor) : Prop :=
  descE d = true ∧ if descC d then (descDpl d).toNat ≤ cpl.toNat
    else (sel.extractLsb' 0 2 : BitVec 2).toNat ≤ cpl.toNat ∧ descDpl d = cpl

theorem codeAllowed_iff (cpl : BitVec 2) : CodeAllowed cpl sel d ↔ descE d = true ∧
    (if descConforming d then decide (descDpl d ≤ cpl)
      else decide (selRpl sel ≤ cpl) && descDpl d == cpl) = true := by
  refine and_congr_right fun he => ?_
  rw [descConforming, he, Bool.true_and, selRpl]
  split <;> simp [BitVec.le_def]

open Classical in
theorem farTransfer_code (hn : selNull sel = false) (hd : findDesc sel .gp s = .ok (a, d) v) (hS : descS d = true) :
    farTransfer kind sel raw s =
      if CodeAllowed v.cpl sel d then
        if descP d = true then farSameLevel kind (itemBytes v.os32) sel a d (v.osWrap raw) v
        else .error (.exn (.np (selCode sel))) v
      else .error (.exn (.gp (selCode sel))) v := by
  rw [farTransfer, require_pass (by rw [hn]; rfl), M.bind_ok hd]
  dsimp only
  rw [if_pos hS, require_bind_apply, directCode, M.get_bind_apply, require_bind_apply, require_bind_apply,
    if_congr (codeAllowed_iff v.cpl) rfl rfl, ite_and]

theorem farTransfer_gate (hn : selNull sel = false) (hd : findDesc sel .gp s = .ok (a, d) v) (hS : descS d = false)
    (ht : descType d = 4 ∨ descType d = 12) : farTransfer kind sel raw s = callGate kind sel d v := by
  rw [farTransfer, require_pass (by rw [hn]; rfl), M.bind_ok hd]
  dsimp only
  rw [hS, if_neg (by decide)]
  rcases ht with ht | ht <;> (rw [ht]; rfl)

end

/-- Whether a call gate may be used (45_control_transfer.md R483). -/
def GateVisible (cpl : BitVec 2) (sel : Word) (g : Descriptor) : Prop :=
  cpl.toNat ≤ (descDpl g).toNat ∧ (sel.extractLsb' 0 2 : BitVec 2).toNat ≤ (descDpl g).toNat

/-- Whether its target may be entered. -/
def GateTarget (kind : FarKind) (cpl : BitVec 2) (c : Descriptor) : Prop :=
  descS c = true ∧ descE c = true ∧ (descDpl c).toNat ≤ cpl.toNat ∧ (kind = .jmp → descC c = true ∨ descDpl c = cpl)

section
variable {v w : State} {kind : FarKind} {gsel : Word} {g : Descriptor} {b : Dword} {c : Descriptor}

theorem gateVisible_iff (cpl : BitVec 2) :
    GateVisible cpl gsel g ↔ (decide (cpl ≤ descDpl g) && decide (selRpl gsel ≤ descDpl g)) = true := by
  rw [GateVisible, selRpl, Bool.and_eq_true, decide_eq_true_eq, decide_eq_true_eq, BitVec.le_def, BitVec.le_def]

theorem callGate_hidden (h : ¬ GateVisible v.cpl gsel g) :
    callGate kind gsel g v = .error (.exn (.gp (selCode gsel))) v := by
  rw [gateVisible_iff, Bool.not_eq_true] at h
  rw [callGate, M.get_bind_apply, require_fail h]

theorem callGate_absent (h : GateVisible v.cpl gsel g) (hp : descP g = false) :
    callGate kind gsel g v = .error (.exn (.np (selCode gsel))) v := by
  rw [callGate, M.get_bind_apply, require_pass ((gateVisible_iff _).1 h), require_fail hp]

theorem callGate_null (h : GateVisible v.cpl gsel g) (hp : descP g = true) (hn : selNull (gateSelector g) = true) :
    callGate kind gsel g v = .error (.exn (.gp 0)) v := by
  rw [callGate, M.get_bind_apply, require_pass ((gateVisible_iff _).1 h), require_pass hp]
  dsimp only
  rw [require_fail (by rw [hn]; rfl)]

theorem gateTarget_iff (cpl : BitVec 2) : GateTarget kind cpl c ↔ descIsCode c = true ∧
    decide (descDpl c ≤ cpl) = true ∧ (decide (kind = .call) || descConforming c || descDpl c == cpl) = true := by
  rw [GateTarget, descIsCode, descConforming, decide_eq_true_eq, BitVec.le_def, Bool.and_eq_true]
  cases kind <;> simp <;> tauto

open Classical in
/-- A call gate whose target was read. -/
theorem callGate_target (h : GateVisible v.cpl gsel g) (hp : descP g = true) (hn : selNull (gateSelector g) = false)
    (hd : findDesc (gateSelector g) .gp v = .ok (b, c) w) : callGate kind gsel g v =
      if GateTarget kind v.cpl c then
        if descP c = true then
          if (decide (kind = .call) && !descConforming c && decide (descDpl c < v.cpl)) = true then
            innerCall g (gateSelector g) b c (gateOffset g (descType g == 12)) w
          else farSameLevel kind (if descType g = 12 then 4 else 2) (gateSelector g) b c
            (gateOffset g (descType g == 12)) w
        else .error (.exn (.np (selCode (gateSelector g)))) w
      else .error (.exn (.gp (selCode (gateSelector g)))) w := by
  rw [callGate, M.get_bind_apply, require_pass ((gateVisible_iff _).1 h), require_pass hp]
  dsimp only
  rw [require_pass (by rw [hn]; rfl), M.bind_ok hd]
  dsimp only
  rw [require_bind_apply, require_bind_apply, require_bind_apply, require_bind_apply,
    if_congr (gateTarget_iff v.cpl) rfl rfl, ite_and, ite_and]
  split_ifs <;> rfl

end

/-! Far RET at the same level. -/

/-- Whether a return to the code segment `d` of `sel` is allowed (45_control_transfer.md R486). -/
def ReturnAllowed (cpl : BitVec 2) (sel : Word) (d : Descriptor) : Prop :=
  descS d = true ∧ descE d = true ∧ cpl.toNat ≤ (sel.extractLsb' 0 2 : BitVec 2).toNat ∧
    if descC d then (descDpl d).toNat ≤ (sel.extractLsb' 0 2 : BitVec 2).toNat else descDpl d = sel.extractLsb' 0 2

theorem returnAllowed_iff (cpl : BitVec 2) (sel : Word) (d : Descriptor) : ReturnAllowed cpl sel d ↔
    descIsCode d = true ∧ decide (cpl ≤ selRpl sel) = true ∧
    (if descConforming d then decide (descDpl d ≤ selRpl sel) else descDpl d == selRpl sel) = true := by
  rw [ReturnAllowed, descIsCode, descConforming, decide_eq_true_eq, BitVec.le_def, Bool.and_eq_true, and_assoc]
  refine and_congr_right fun _ => and_congr_right fun he => and_congr_right fun _ => ?_
  rw [he, Bool.true_and]
  split <;> simp [BitVec.le_def, selRpl]

section
variable {s w : State} {sel : Word} {off : Dword} {items release : Nat} {a : Dword} {d : Descriptor}

theorem returnCS_null (hn : selNull sel = true) : returnCS sel off items release s = .error (.exn (.gp 0)) s := by
  rw [returnCS, M.get_bind_apply]
  dsimp only
  rw [require_fail (by rw [hn]; rfl)]

open Classical in
/-- A return to the same level, its descriptor read. -/
theorem returnCS_same (hn : selNull sel = false) (hd : findDesc sel .gp s = .ok (a, d) w)
    (hr : ReturnAllowed s.cpl sel d → descP d = true → selRpl sel = s.cpl) :
    returnCS sel off items release s =
      if ReturnAllowed s.cpl sel d then
        if descP d = true then
          if off ≤ descLimit d then (do
            setAccessed a d
            moveStackPtr (BitVec.ofNat 32 (items * itemBytes s.os32 + release))
            commitCS sel d s.cpl
            jumpTo off : M Unit) w
          else .error (.exn (.gp 0)) w
        else .error (.exn (.np (selCode sel))) w
      else .error (.exn (.gp (selCode sel))) w := by
  rw [returnCS, M.get_bind_apply]
  dsimp only
  rw [require_pass (by rw [hn]; rfl), M.bind_ok hd]
  dsimp only
  have allowed := returnAllowed_iff s.cpl sel d
  by_cases h : ReturnAllowed s.cpl sel d
  · obtain ⟨hcode, hcpl, hdpl⟩ := allowed.1 h
    rw [if_pos h, require_pass hcode, require_pass hcpl, require_pass hdpl, require_bind_apply]
    by_cases hp : descP d = true
    · rw [if_pos hp, if_pos hp, if_pos (hr h hp), require_bind_apply]
      simp only [decide_eq_true_eq]
    · rw [if_neg hp, if_neg hp]
  · rw [if_neg h, require_bind_apply, require_bind_apply, require_bind_apply, ← ite_and, ← ite_and,
      if_neg fun hall => h (allowed.2 (and_assoc.1 hall))]

/-- The return carried out. -/
theorem returnCS_in {s w t : State} {ps : List Dword} {x : Nat} (c : s.closed = true) (h : Touched s w)
    (ha : Accessed a d w ps x t) : (do
      setAccessed a d
      moveStackPtr (BitVec.ofNat 32 release)
      commitCS sel d s.cpl
      jumpTo off : M Unit) w = .ok () { t with
        mem := t.mem.writeAt ps x, regs := s.moved (BitVec.ofNat 32 release)
        segs := { s.segs with cs := s.committed sel d }, eip := off, prefetch := [] } := by
  obtain ⟨q, hq⟩ := setAccessed_ok (h.stays c) ha
  rw [M.bind_ok hq, M.bind_ok (moveStackPtr_moved _ _)]
  obtain ⟨m, q', l, k, b, e, rfl⟩ := (h.trans ha.touched).form c
  rfl

end

/-- An instruction whose meaning comes to a return to the same level from `v`, and then `rest`. -/
theorem returnCS_returns {s v : State} {i : Instr} {sel : Word} {off : Dword} {items more : Nat} {f f' : Flags}
    {nmi : Bool} {body rest : M Done} {d : Done} (c : s.closed = true) (h : Touched s v)
    (he : exec i s = runInstr body s) (hb : body s = (returnCS sel off items more >>= fun _ => rest) v)
    (hd : d ≠ .silent)
    (hrest : ∀ x : State, x.flags = s.flags → x.nmiInService = s.nmiInService →
      rest x = .ok d { x with flags := f', nmiInService := nmi })
    (hf : ({ f' with rf := if d = .plain then false else f'.rf } : Flags) = f) :
    ReturnsSameLevel s v i sel off (items * itemBytes s.os32 + more) f nmi := by
  have raises : ∀ {e : Exn} {w : State}, returnCS sel off items more v = .error (.exn e) w → exec i s = takeExn s w e :=
    fun hl => he.trans (runInstr_exn (hb.trans (M.bind_error hl _)))
  refine ⟨fun hn => raises (returnCS_null (by rw [selNull_eq, decide_eq_true hn])), fun hn a d' w hdesc => ?_⟩
  have hw := h.trans (Touched.of_findDesc hdesc)
  have notNull : selNull sel = false := by rw [selNull_eq, decide_eq_false (by omega)]
  have ret := fun hr => returnCS_same (off := off) (items := items) (release := more) notNull hdesc hr
  rw [h.cpl, h.os32] at ret
  refine ⟨fun hbad => ?_, fun ha hp => ?_, fun ha hp hr hlt => ?_, fun ha hp hr hle ps x t hacc => ?_⟩
  · exact raises ((ret fun ha => absurd ha hbad).trans (if_neg hbad))
  · exact raises ((ret fun _ hp' => absurd (hp.symm.trans hp') (by decide)).trans ((if_pos ha).trans
      (if_neg (by rw [hp]; decide))))
  · exact raises ((ret fun _ _ => hr).trans ((if_pos ha).trans ((if_pos hp).trans (if_neg (not_le_of_bvlt hlt)))))
  · have ht := hw.trans hacc.touched
    obtain ⟨hnd, hx⟩ := hacc.bytes
    have hret := (ret fun _ _ => hr).trans ((if_pos ha).trans ((if_pos hp).trans ((if_pos hle).trans
      (returnCS_in c hw hacc))))
    have hb := hb.trans ((M.bind_ok hret _).trans (hrest _ ht.flags (by rw [ht.rest])))
    obtain ⟨m, q, l, k, b, e, rfl⟩ := ht.form c
    exact Leaves.written_in he hd rfl (by exact c) (ht.over c _ s.cpl s.cr2 s.gdtr s.idtr s.ldtr s.tr s.inhibit
      nmi s.ioLog) hnd hx hb rfl hf

/-- The offset in a gate, as the statement writes it. -/
theorem gateOffset_eq (g : Descriptor) : gateOffset g (descType g == 12) =
    if descType g = 12 then g.extractLsb' 48 16 ++ g.extractLsb' 0 16 else (g.extractLsb' 0 16).setWidth 32 := by
  unfold gateOffset
  by_cases h : descType g = 12
  · rw [if_pos h, if_pos (by rw [h]; rfl)]
  · rw [if_neg h, if_neg (by rwa [beq_iff_eq])]

/-- A target that conforms or has the CPL as its level is no inner one. -/
theorem notInner {kind : FarKind} {c : Descriptor} {cpl : BitVec 2} (he : descE c = true)
    (h : descC c = true ∨ descDpl c = cpl) :
    ¬ (decide (kind = .call) && !descConforming c && decide (descDpl c < cpl)) = true := by
  rw [descConforming, he, Bool.true_and]
  rcases h with h | h <;> simp [h]

/-- Settles O36. -/
theorem farTransfersCheckDescriptor : Obligations.FarTransfersCheckDescriptor := by
  intro s u v c hp z
  refine ⟨fun kind i sel off hi => ?_, fun i more hi => ⟨fun e he => ?_, fun hroom offAt selAt hl => ?_⟩⟩
  · obtain ⟨h, body, raw, he, hb, rfl⟩ := farForm_runs c hi
    intro rpl code
    have hpu : u.protMode = true := h.protMode.trans hp
    have hb := hb.trans (farBody_protected hpu kind sel raw)
    have raises : ∀ {e : Exn} {x : State}, farTransfer kind sel raw u = .error (.exn e) x → exec i s = takeExn s x e :=
      fun hl => he.trans (runInstr_exn (hb.trans hl))
    refine ⟨fun hn => raises (farTransfer_null (by rw [selNull_eq, decide_eq_true hn])), fun hn a d hd => ?_⟩
    have notNull : selNull sel = false := by rw [selNull_eq, decide_eq_false (by omega)]
    have hv := h.trans (Touched.of_findDesc hd)
    refine ⟨fun hS => ?_, fun hS hT => ?_⟩
    · have hcode := farTransfer_code (kind := kind) (raw := raw) notNull hd hS
      rw [hv.cpl, hv.os32, hv.osWrap] at hcode
      refine ⟨fun hbad => raises (hcode.trans (if_neg hbad)), fun ha hpr => ?_, fun ha hpr => ?_⟩
      · exact raises (hcode.trans ((if_pos ha).trans (if_neg (by rw [hpr]; decide))))
      · exact farSameLevel_enters c hv he (hb.trans (hcode.trans ((if_pos ha).trans (if_pos hpr))))
    · have hgate := farTransfer_gate (kind := kind) (raw := raw) notNull hd hS hT
      intro visible dest destCode at_
      refine ⟨fun hbad => ?_, fun hvis hpr => ?_, fun hvis hpr hn' => ?_, fun hvis hpr hn' b g w hd' => ?_⟩
      · exact raises (hgate.trans (callGate_hidden (by rwa [hv.cpl])))
      · exact raises (hgate.trans (callGate_absent (by rwa [hv.cpl]) hpr))
      · exact raises (hgate.trans (callGate_null (by rwa [hv.cpl]) hpr (by rw [selNull_eq]; exact decide_eq_true hn')))
      · have target := hgate.trans (callGate_target (kind := kind) (by rwa [hv.cpl]) hpr
          (by rw [selNull_eq]; exact decide_eq_false (not_lt.2 hn')) hd')
        rw [hv.cpl, gateOffset_eq] at target
        refine ⟨fun hbad => raises (target.trans (if_neg hbad)), fun hr hpr' => ?_, fun hr hpr' hsame => ?_⟩
        · exact raises (target.trans ((if_pos hr).trans (if_neg (by rw [hpr']; decide))))
        · have ⟨_, hE, _, _⟩ := hr
          exact farSameLevel_enters c (hv.trans (Touched.of_findDesc hd')) he (hb.trans (target.trans
            ((if_pos hr).trans ((if_pos hpr').trans (if_neg (notInner hE hsame))))))
  · exact (farRetForm_runs hi).trans (runInstr_exn (returnFar_room he))
  · have hb := returnFar_items (more := more) c hroom hl
    rw [hp, if_pos rfl] at hb
    exact returnCS_returns (d := .plain) (f' := s.flags) c (Touched.of_locateItems hl) (farRetForm_runs hi) hb
      (by decide) (fun x hf hn => by rw [← hf, ← hn]; rfl) rfl

end Sys2Proof.Machine

/-! Returns from interrupts: obligation O35. -/

namespace Sys2Proof.Machine

theorem interruptReturn_real {s : State} (h : s.protMode = false) : interruptReturn s = iret8086 s := by
  rw [interruptReturn, M.get_bind_apply, if_neg (by rw [h]; decide)]

theorem interruptReturn_prot {s : State} (h : s.protMode = true) : interruptReturn s = iretProtected s := by
  rw [interruptReturn, M.get_bind_apply, if_pos h]

/-! In Real Mode and Virtual 8086 Mode. -/

theorem iret8086_checked {s : State} (h : s.flags.vm = false ∨ s.flags.iopl = 3) :
    (!s.flags.vm || s.flags.iopl == 3) = true := by
  rcases h with h | h <;> rw [h]
  · rfl
  · exact Bool.or_true _

section
variable {s t : State} {offAt selAt imageAt : List Dword}

theorem iret8086_denied (hv : s.flags.vm = true) (hi : s.flags.iopl ≠ 3) : iret8086 s = .error (.exn (.gp 0)) s := by
  have : (!s.flags.vm || s.flags.iopl == 3) = false := by rw [hv, beq_false_of_ne hi]; rfl
  rw [iret8086, M.get_bind_apply, require_fail this]

theorem iret8086_room (h : s.flags.vm = false ∨ s.flags.iopl = 3) {e : Exn}
    (he : segCheck s.segs.ss (.ss 0) s.stackPtr (3 * itemBytes s.os32) false = some e) :
    iret8086 s = .error (.exn e) s := by
  rw [iret8086, M.get_bind_apply, require_pass (iret8086_checked h)]
  dsimp only
  rw [M.bind_error (requireStack_raises he)]

variable (c : s.closed = true) (h : s.flags.vm = false ∨ s.flags.iopl = 3)
  (hroom : segCheck s.segs.ss (.ss 0) s.stackPtr (3 * itemBytes s.os32) false = none)
  (hl : locateItems (itemBytes s.os32) 3 0 s = .ok [offAt, selAt, imageAt] t)
include c h hroom hl

theorem iret8086_out (hlt : s.segs.cs.limit < (BitVec.ofNat 32 (t.mem.readAt offAt) : Dword)) :
    iret8086 s = .error (.exn (.gp 0)) t := by
  have ht := Touched.of_locateItems hl
  rw [iret8086, M.get_bind_apply, require_pass (iret8086_checked h)]
  dsimp only
  rw [M.bind_ok (requireStack_pass hroom), M.bind_ok (stackItems_closed c hl)]
  exact M.bind_error (farLoad8086_out (by rw [ht.segs]; exact hlt)) _

theorem iret8086_in (hle : (BitVec.ofNat 32 (t.mem.readAt offAt) : Dword) ≤ s.segs.cs.limit) :
    iret8086 s = .ok .keepRf { t with
      segs := { s.segs with cs := loaded8086 s s.segs.cs (BitVec.ofNat 16 (t.mem.readAt selAt)) }
      regs := s.moved (BitVec.ofNat 32 (3 * itemBytes s.os32)), eip := BitVec.ofNat 32 (t.mem.readAt offAt)
      flags := s.loadedFlags (BitVec.ofNat 32 (t.mem.readAt imageAt)), nmiInService := false, prefetch := [] } := by
  have ht := Touched.of_locateItems hl
  have load := farLoad8086_in (s := t) (sel := BitVec.ofNat 16 (t.mem.readAt selAt)) (by rw [ht.segs]; exact hle)
  rw [iret8086, M.get_bind_apply, require_pass (iret8086_checked h)]
  dsimp only
  rw [M.bind_ok (requireStack_pass hroom), M.bind_ok (stackItems_closed c hl), ← popped_eq_loadedFlags]
  refine (M.bind_ok load _).trans ?_
  obtain ⟨m, q, l, k, b, e, rfl⟩ := ht.form c
  rfl

end

/-! In Protected Mode with NT = 0. -/

section
variable {s t : State} {offAt selAt imageAt : List Dword} (c : s.closed = true)

theorem iretProtected_room (hnt : s.flags.nt = false) {e : Exn}
    (he : segCheck s.segs.ss (.ss 0) s.stackPtr (3 * itemBytes s.os32) false = some e) :
    iretProtected s = .error (.exn e) s := by
  rw [iretProtected, M.get_bind_apply, if_neg (by rw [hnt]; decide)]
  dsimp only
  rw [M.bind_error (requireStack_raises he)]

variable (hnt : s.flags.nt = false)
  (hroom : segCheck s.segs.ss (.ss 0) s.stackPtr (3 * itemBytes s.os32) false = none)
  (hl : locateItems (itemBytes s.os32) 3 0 s = .ok [offAt, selAt, imageAt] t)
include c hnt hroom hl

/-- IRET with its three items read: a return to the same level, or to Virtual 8086 Mode. -/
theorem iretProtected_items :
    let image : Dword := BitVec.ofNat 32 (t.mem.readAt imageAt)
    let sel : Word := BitVec.ofNat 16 (t.mem.readAt selAt)
    let off : Dword := BitVec.ofNat 32 (t.mem.readAt offAt)
    iretProtected s = if s.os32 = true ∧ image.getLsbD 17 = true ∧ s.cpl = 0
      then (returnToV86 off sel image >>= fun _ => endNmi >>= fun _ => pure Done.keepRf) t
      else (returnCS sel off 3 0 >>= fun _ => do
        modify fun u : State => { u with flags := s.flags.popped image s.os32 false s.cpl }
        endNmi
        pure Done.keepRf) t := by
  intro image sel off
  rw [iretProtected, M.get_bind_apply, if_neg (by rw [hnt]; decide)]
  dsimp only
  rw [M.bind_ok (requireStack_pass hroom), M.bind_ok (stackItems_closed c hl)]
  have cond : (s.os32 && image.getLsbD 17 && s.cpl == 0) = true ↔
      s.os32 = true ∧ image.getLsbD 17 = true ∧ s.cpl = 0 := by
    rw [Bool.and_eq_true, Bool.and_eq_true, beq_iff_eq, and_assoc]
  by_cases h : s.os32 = true ∧ image.getLsbD 17 = true ∧ s.cpl = 0
  · rw [if_pos h]
    exact congrFun (if_pos (cond.2 h)) t
  · rw [if_neg h]
    exact congrFun (if_neg (mt cond.1 h)) t

end

/-- ReturnToV86, its frame located. -/
theorem returnToV86_ok {s w : State} {off image : Dword} {sel : Word} {esp ss es ds fs gs : List Dword}
    (c : s.closed = true) (hroom : segCheck s.segs.ss (.ss 0) s.stackPtr 36 false = none)
    (hl : locateItems 4 6 12 s = .ok [esp, ss, es, ds, fs, gs] w) :
    let seg := fun ps => SegReg.v86 (BitVec.ofNat 16 (w.mem.readAt ps))
    returnToV86 off sel image s = .ok () { w with
      flags := Flags.ofImage image, segs := ⟨seg es, SegReg.v86 sel, seg ss, seg ds, seg fs, seg gs⟩
      regs := { w.regs with esp := BitVec.ofNat 32 (w.mem.readAt esp) }
      cpl := 3, eip := off &&& 0xFFFF, prefetch := [] } := by
  intro seg
  rw [returnToV86, M.bind_ok (requireStack_pass hroom), M.bind_ok (stackItems_closed c hl)]
  rfl

/-! In Protected Mode with NT = 1: the task of the back link. -/

section
variable {s u w : State} {link : Word} {a : Dword} {d : Descriptor}

theorem iretProtected_task (hnt : s.flags.nt = true) :
    iretProtected s = (iretTask >>= fun _ => pure Done.silent) { s with nmiInService := false } := by
  rw [iretProtected, M.get_bind_apply, if_pos hnt]
  rfl

theorem iretTask_noTask (hr : sysRead16 s.tr.base s = .ok link u) (h : link.toNat < 4 ∨ link.getLsbD 2 = true) :
    iretTask s = .error (.exn (.ts (selCode link))) u := by
  have bad : (!selNull link && !selTi link) = false := by
    rw [selNull_eq, selTi]
    rcases h with h | h
    · rw [decide_eq_true h]
      rfl
    · rw [h]
      exact Bool.and_false _
  rw [iretTask, M.get_bind_apply, M.bind_ok hr, require_fail bad]

variable (hr : sysRead16 s.tr.base s = .ok link u) (hn : 4 ≤ link.toNat) (hti : link.getLsbD 2 = false)
  (hd : findDesc link .ts u = .ok (a, d) w)
include hr hn hti hd

open Classical in
/-- The back link's descriptor read: a busy TSS that is present is switched to. -/
theorem iretTask_checks : iretTask s =
    if descS d = false ∧ (descType d = 3 ∨ descType d = 11) then
      if descP d = true then taskSwitch link d .iret { w with eip := w.nextEip }
      else .error (.exn (.np (selCode link))) w
    else .error (.exn (.ts (selCode link))) w := by
  have good : (!selNull link && !selTi link) = true := by
    rw [selNull_eq, selTi, hti, decide_eq_false (by omega)]
    rfl
  have busy : (!descS d && (descType d == 3 || descType d == 11)) = true ↔
      descS d = false ∧ (descType d = 3 ∨ descType d = 11) := by
    rw [Bool.and_eq_true, Bool.not_eq_true', Bool.or_eq_true, beq_iff_eq, beq_iff_eq]
  rw [iretTask, M.get_bind_apply, M.bind_ok hr, require_pass good, M.bind_ok hd]
  dsimp only
  rw [require_bind_apply, require_bind_apply, if_congr busy rfl rfl]
  rfl

end

theorem runInstr_exnNew {body : M Done} {s t : State} {e : Exn} (h : body s = .error (.exnNew e) t) :
    runInstr body s = takeExnNew t e := by
  rw [runInstr, h]
  rfl

/-- Settles O35. -/
theorem interruptReturnRestoresFrame : Obligations.InterruptReturnRestoresFrame := by
  intro s u t offAt selAt imageAt c z room off sel popped
  refine ⟨fun hv hi => ?_, fun hp h => ⟨fun e he => ?_, fun hroom hl => ⟨fun hle => ?_, fun hlt => ?_⟩⟩,
    fun hp hnt => ⟨fun e he => ?_, fun hroom hl => ⟨fun hno => ?_, fun hyes e he => ?_,
      fun hyes hroom' esp ss es ds fs gs w hl' => ?_⟩⟩,
    fun hp hnt link hlink => ⟨fun hbad => ?_, fun hn hti a d w hd => ?_⟩⟩
  · have hp : s.protMode = false := by rw [State.protMode, hv]; exact Bool.and_false _
    exact runInstr_exn ((interruptReturn_real hp).trans (iret8086_denied hv hi))
  · exact runInstr_exn ((interruptReturn_real hp).trans (iret8086_room h he))
  · have hb := (interruptReturn_real hp).trans (iret8086_in c h hroom hl hle)
    have ht := Touched.of_locateItems hl
    obtain ⟨m, q, l, n, b, k, rfl⟩ := ht.form c
    exact Leaves.intro_none rfl hb (by decide) rfl (by exact c) (ht.over c _ s.cpl s.cr2 s.gdtr s.idtr s.ldtr s.tr
      s.inhibit false s.ioLog) rfl rfl rfl rfl
  · exact runInstr_exn ((interruptReturn_real hp).trans (iret8086_out c h hroom hl hlt))
  · exact runInstr_exn ((interruptReturn_prot hp).trans (iretProtected_room hnt he))
  · have hb := (interruptReturn_prot hp).trans ((iretProtected_items c hnt hroom hl).trans (if_neg hno))
    have hpe : s.cr0.pe = true := by
      rw [State.protMode, Bool.and_eq_true] at hp
      exact hp.1
    have hpop := popped_eq_loadedFlags s popped
    rw [hpe] at hpop
    refine returnCS_returns (d := .keepRf) (more := 0) (f' := s.loadedFlags popped) c (Touched.of_locateItems hl) rfl hb
      (by decide) (fun x _ _ => ?_) rfl
    rw [← hpop]
    rfl
  · have hb := (interruptReturn_prot hp).trans ((iretProtected_items c hnt hroom hl).trans (if_pos hyes))
    have ht := Touched.of_locateItems hl
    refine runInstr_exn (hb.trans (M.bind_error (M.bind_error (requireStack_raises ?_) _) _))
    rw [ht.segs, ht.stackPtr]
    exact he
  · have hb := (interruptReturn_prot hp).trans ((iretProtected_items c hnt hroom hl).trans (if_pos hyes))
    have ht := Touched.of_locateItems hl
    have hw := ht.trans (Touched.of_locateItems hl')
    have hpe : s.cr0.pe = true := by
      rw [State.protMode, Bool.and_eq_true] at hp
      exact hp.1
    have hload : ∀ old x, loaded8086 s old x = SegReg.v86 x := fun old x => by rw [← loadReal_eq, if_pos hpe]
    have hb := hb.trans (M.bind_ok (returnToV86_ok (ht.stays c) (by rw [ht.segs, ht.stackPtr]; exact hroom') hl') _)
    simp only [hload]
    obtain ⟨m, q, l, n, b, k, rfl⟩ := hw.form c
    exact Leaves.intro_none rfl hb (by decide) rfl (by exact c) (hw.over c _ 3 s.cr2 s.gdtr s.idtr s.ldtr s.tr
      s.inhibit false s.ioLog) rfl rfl rfl rfl
  · have hb := (interruptReturn_prot hp).trans (iretProtected_task hnt)
    exact runInstr_exn (hb.trans (M.bind_error (iretTask_noTask hlink hbad) _))
  · have hb := (interruptReturn_prot hp).trans (iretProtected_task hnt)
    have task := iretTask_checks hlink hn hti hd
    have next : w.nextEip = s.nextEip := (((Touches.sysRead16 _ _).1 _ _ hlink).trans (Touched.of_findDesc hd)).nextEip
    rw [next] at task
    refine ⟨fun hbad => ?_, fun hbusy hpr => ?_, fun hbusy hpr x => ?_⟩
    · exact runInstr_exn (hb.trans (M.bind_error (task.trans (if_neg hbad)) _))
    · exact runInstr_exn (hb.trans (M.bind_error (task.trans ((if_pos hbusy).trans (if_neg (by rw [hpr]; decide)))) _))
    · have task := task.trans ((if_pos hbusy).trans (if_pos hpr))
      refine ⟨fun hx => ?_, fun e hx => ?_, fun e hx => ?_⟩
      · exact runInstr_ok (hb.trans (M.bind_ok (task.trans hx) _))
      · exact runInstr_exn (hb.trans (M.bind_error (task.trans hx) _))
      · exact runInstr_exnNew (hb.trans (M.bind_error (task.trans hx) _))

end Sys2Proof.Machine

/-! String instructions: obligation O30. -/

namespace Sys2Proof.Machine

/-! Operands of an element. -/

theorem stepPointer_apply (w : Width) (r : Reg) (s : State) :
    stepPointer w r s = .ok () { s with regs := s.past w s.regs r } := by
  rw [stepPointer, M.get_bind_apply, addAsReg_apply]
  rfl

theorem locateSource_of {s u v : State} {w : Width} {ps : List Dword} (h : Touched s u)
    (hl : segLocate (s.segFor .ds) (s.asReg .esi) w.bytes false u = .ok ps v) : locateSource w u = .ok ps v := by
  rw [locateSource, M.get_bind_apply, ← hl, h.rest]
  rfl

theorem locateDest_of {s u v : State} {w : Width} {write : Bool} {ps : List Dword} (h : Touched s u)
    (hl : segLocate .es (s.asReg .edi) w.bytes write u = .ok ps v) : locateDest w write u = .ok ps v := by
  rw [locateDest, M.get_bind_apply, ← hl, h.rest]
  rfl

theorem memWrite_at {s : State} (c : s.closed = true) (ps : List Dword) (v : Nat) :
    ∃ q, memWrite ps v s = .ok () { s with mem := s.mem.writeAt ps v, prefetch := q } :=
  ⟨_, (memWrite_closed c ps v).trans (by rw [State.putBytes_eq])⟩

/-- What was read at located bytes fits in the width. -/
theorem readAt_fits {w : Width} {ps : List Dword} (m : Memory) (h : ps.length = w.bytes) :
    (BitVec.ofNat w.bits (m.readAt ps)).toNat = m.readAt ps := by
  rw [BitVec.toNat_ofNat, Nat.mod_eq_of_lt]
  rw [two_pow_bits, ← h]
  exact m.readAt_lt ps

/-! One element. -/

/-- The model's meaning of one element. -/
def StringOp.body (w : Width) : StringOp → M Unit
  | .movs => moveElement w
  | .cmps => compareElements w
  | .scas => scanElement w
  | .lods => loadElement w
  | .stos => storeElement w
  | .ins => inElement w
  | .outs => outElement w

theorem stringForm_runs {s : State} {i : Instr} {op : StringOp} {w : Width} (h : StringForm s i op w) :
    exec i s = runInstr (repeatStep op.compares (op.body w)) s := by
  cases h <;> rfl

/-- A meaning that leaves registers, flags, one number in located bytes and the record of device cycles as said. -/
def DoesElement (s s' : State) (body : M Unit) (g : Regs) (f : Flags) (ps : List Dword) (v : Nat) : Prop :=
  ∃ u io q n, s' = { s with ioLog := io } ∧ Touched s u ∧ ps.Nodup ∧ v < 256 ^ ps.length ∧
    body s = .ok () { u with regs := g, flags := f, mem := u.mem.writeAt ps v, prefetch := q, free := n, ioLog := io }

section
variable {s u v : State} {w : Width} {src dst : List Dword} (c : s.closed = true)
include c

theorem moveElement_does (h1 : segLocate (s.segFor .ds) (s.asReg .esi) w.bytes false s = .ok src u)
    (h2 : segLocate .es (s.asReg .edi) w.bytes true u = .ok dst v) :
    DoesElement s s (moveElement w) (s.past w (s.past w s.regs .esi) .edi) s.flags dst (v.mem.readAt src) := by
  have hu := Touched.of_segLocate h1
  have hv := hu.trans (Touched.of_segLocate h2)
  obtain ⟨hsrc, -⟩ := segLocate_bytes (bytes_le w) h1
  obtain ⟨hdst, hnd⟩ := segLocate_bytes (bytes_le w) h2
  obtain ⟨q, hw⟩ := memWrite_at (hv.stays c) dst (v.mem.readAt src)
  have hlt := v.mem.readAt_lt src
  refine ⟨v, s.ioLog, q, v.free, rfl, hv, hnd, by rwa [hdst, ← hsrc], ?_⟩
  rw [moveElement, M.bind_ok (locateSource_of (.refl s) h1), M.bind_ok (locateDest_of hu h2),
    M.bind_ok (readValue_closed (hv.stays c) w src), readAt_fits _ hsrc, M.bind_ok hw, M.bind_ok (stepPointer_apply ..),
    stepPointer_apply]
  obtain ⟨m, q', l, k, b, e, rfl⟩ := hv.form c
  rfl

theorem compareElements_does (h1 : segLocate (s.segFor .ds) (s.asReg .esi) w.bytes false s = .ok src u)
    (h2 : segLocate .es (s.asReg .edi) w.bytes false u = .ok dst v) :
    DoesElement s s (compareElements w) (s.past w (s.past w s.regs .esi) .edi)
      (s.flags.subtracting (BitVec.ofNat w.bits (v.mem.readAt src)) (BitVec.ofNat w.bits (v.mem.readAt dst)) false)
      [] 0 := by
  have hu := Touched.of_segLocate h1
  have hv := hu.trans (Touched.of_segLocate h2)
  refine ⟨v, s.ioLog, v.prefetch, v.free, rfl, hv, List.nodup_nil, Nat.one_pos, ?_⟩
  rw [compareElements, M.bind_ok (locateSource_of (.refl s) h1), M.bind_ok (locateDest_of hu h2),
    M.bind_ok (readValue_closed (hv.stays c) w src), M.bind_ok (readValue_closed (hv.stays c) w dst),
    M.bind_ok (opSub_apply ..), M.bind_ok (stepPointer_apply ..), stepPointer_apply]
  obtain ⟨m, q', l, k, b, e, rfl⟩ := hv.form c
  rfl

theorem scanElement_does (h : segLocate .es (s.asReg .edi) w.bytes false s = .ok dst u) :
    DoesElement s s (scanElement w) (s.past w s.regs .edi)
      (s.flags.subtracting (s.regs.read w .eax) (BitVec.ofNat w.bits (u.mem.readAt dst)) false) [] 0 := by
  have hu := Touched.of_segLocate h
  refine ⟨u, s.ioLog, u.prefetch, u.free, rfl, hu, List.nodup_nil, Nat.one_pos, ?_⟩
  rw [scanElement, M.bind_ok (locateDest_of (.refl s) h), M.bind_ok (readValue_closed (hu.stays c) w dst),
    M.bind_ok (getReg_apply ..), M.bind_ok (opSub_apply ..), stepPointer_apply]
  obtain ⟨m, q', l, k, b, e, rfl⟩ := hu.form c
  rfl

theorem loadElement_does (h : segLocate (s.segFor .ds) (s.asReg .esi) w.bytes false s = .ok src u) :
    DoesElement s s (loadElement w)
      (s.past w (s.regs.write w .eax (BitVec.ofNat w.bits (u.mem.readAt src))) .esi) s.flags [] 0 := by
  have hu := Touched.of_segLocate h
  refine ⟨u, s.ioLog, u.prefetch, u.free, rfl, hu, List.nodup_nil, Nat.one_pos, ?_⟩
  rw [loadElement, M.bind_ok (locateSource_of (.refl s) h), M.bind_ok (readValue_closed (hu.stays c) w src),
    M.bind_ok (setReg_apply ..), stepPointer_apply]
  obtain ⟨m, q', l, k, b, e, rfl⟩ := hu.form c
  rfl

theorem storeElement_does (h : segLocate .es (s.asReg .edi) w.bytes true s = .ok dst u) :
    DoesElement s s (storeElement w) (s.past w s.regs .edi) s.flags dst (s.regs.read w .eax).toNat := by
  have hu := Touched.of_segLocate h
  obtain ⟨hdst, hnd⟩ := segLocate_bytes (bytes_le w) h
  obtain ⟨q, hw⟩ := memWrite_at (hu.stays c) dst (s.regs.read w .eax).toNat
  refine ⟨u, s.ioLog, q, u.free, rfl, hu, hnd, by rw [hdst]; exact toNat_lt_pow w _, ?_⟩
  rw [storeElement, M.bind_ok (getReg_apply ..), M.bind_ok (locateDest_of (.refl s) h), M.bind_ok hw,
    stepPointer_apply]
  obtain ⟨m, q', l, k, b, e, rfl⟩ := hu.form c
  rfl

theorem inElement_does {v' : State} {x : BitVec w.bits} (h1 : ioPermitted s.portDx w.bytes s = .ok () u)
    (h2 : segLocate .es (s.asReg .edi) w.bytes true u = .ok dst v) (h3 : ioRead s.portDx w v = .ok x v') :
    DoesElement s { s with ioLog := s.portLog false s.portDx w.bytes x.toNat ++ s.ioLog } (inElement w)
      (s.past w s.regs .edi) s.flags dst x.toNat := by
  have hu := Touched.of_ioPermitted h1
  have hv := hu.trans (Touched.of_segLocate h2)
  have cv := hv.stays c
  obtain ⟨hdst, hnd⟩ := segLocate_bytes (bytes_le w) h2
  have dx : s.portDx < 65536 := (s.regs.low .edx).isLt
  obtain ⟨y, n, e⟩ := ioRead_record (v.closed_masters cv) dx w
  cases h3.symm.trans e
  obtain ⟨q, hw⟩ := memWrite_at (s := ({ v with free := n } : State).record (v.portLog false s.portDx w.bytes x.toNat))
    (by exact cv) dst x.toNat
  refine ⟨v, _, q, n, rfl, hv, hnd, by rw [hdst]; exact toNat_lt_pow w _, ?_⟩
  rw [inElement, M.get_bind_apply, M.bind_ok h1, M.bind_ok (locateDest_of hu h2), M.bind_ok h3, M.bind_ok hw,
    stepPointer_apply, ← hv.portLog]
  obtain ⟨m, q', l, k, b, e, rfl⟩ := hv.form c
  rfl

theorem outElement_does (h1 : ioPermitted s.portDx w.bytes s = .ok () u)
    (h2 : segLocate (s.segFor .ds) (s.asReg .esi) w.bytes false u = .ok src v) :
    DoesElement s { s with ioLog := s.portLog true s.portDx w.bytes (v.mem.readAt src) ++ s.ioLog } (outElement w)
      (s.past w s.regs .esi) s.flags [] 0 := by
  have hu := Touched.of_ioPermitted h1
  have hv := hu.trans (Touched.of_segLocate h2)
  have cv := hv.stays c
  obtain ⟨hsrc, -⟩ := segLocate_bytes (bytes_le w) h2
  have dx : s.portDx < 65536 := (s.regs.low .edx).isLt
  refine ⟨v, _, v.prefetch, v.free, rfl, hv, List.nodup_nil, Nat.one_pos, ?_⟩
  rw [outElement, M.get_bind_apply, M.bind_ok h1, M.bind_ok (locateSource_of hu h2),
    M.bind_ok (readValue_closed cv w src), M.bind_ok (ioWrite_record (v.closed_masters cv) dx w _),
    stepPointer_apply, readAt_fits _ hsrc, ← hv.portLog]
  obtain ⟨m, q', l, k, b, e, rfl⟩ := hv.form c
  rfl

end

theorem element_does {s s' : State} {w : Width} {op : StringOp} {g : Regs} {f : Flags} {ps : List Dword} {x : Nat}
    (c : s.closed = true) (h : Element s w op g f s' ps x) : DoesElement s s' (op.body w) g f ps x := by
  cases h with
  | movs src dst u v h1 h2 => exact moveElement_does c h1 h2
  | cmps src dst u v h1 h2 => exact compareElements_does c h1 h2
  | scas dst u h => exact scanElement_does c h
  | lods src u h => exact loadElement_does c h
  | stos dst u h => exact storeElement_does c h
  | ins port dst u v v' x hp h1 h2 h3 =>
    subst hp
    exact inElement_does c h1 h2 h3
  | outs port src u v hp h1 h2 =>
    subst hp
    exact outElement_does c h1 h2

/-! The repetition. -/

theorem repeatStep_once {s x : State} {cmp : Bool} {body : M Unit} (h : s.dec.rep = none) (hb : body s = .ok () x) :
    repeatStep cmp body s = .ok .plain { x with eip := x.nextEip } := by
  rw [repeatStep, M.get_bind_apply, h]
  dsimp only
  rw [M.bind_ok hb]
  rfl

theorem repeatStep_zero {s : State} {cmp : Bool} {body : M Unit} {k : RepKind} (h : s.dec.rep = some k)
    (h0 : s.countOf s.regs = 0) : repeatStep cmp body s = .ok .plain { s with eip := s.nextEip } := by
  rw [repeatStep, M.get_bind_apply, h]
  dsimp only
  rw [if_pos ((asReg_eq_zero_iff s).2 h0)]
  rfl

/-- One element of a repetition, and its end. -/
theorem repeatStep_more {s x : State} {cmp : Bool} {body : M Unit} {k : RepKind} (h : s.dec.rep = some k)
    (h0 : s.countOf s.regs ≠ 0) (hb : body s = .ok () x) :
    repeatStep cmp body s =
      if x.countOf (x.bump x.regs .ecx (-1)) = 0 ∨ (cmp = true ∧ x.flags.zf = decide (k = .repne)) then
        .ok .plain { x with regs := x.bump x.regs .ecx (-1), eip := x.nextEip }
      else .ok .keepRf { x with regs := x.bump x.regs .ecx (-1) } := by
  rw [repeatStep, M.get_bind_apply, h]
  dsimp only
  rw [if_neg (mt (asReg_eq_zero_iff s).1 h0), M.bind_ok hb, endIteration, M.bind_ok (addAsReg_apply ..),
    M.get_bind_apply]
  have count := asReg_eq_zero_iff { x with regs := x.bump x.regs .ecx (-1) }
  by_cases hend : x.countOf (x.bump x.regs .ecx (-1)) = 0 ∨ (cmp = true ∧ x.flags.zf = decide (k = .repne))
  · rw [if_pos hend, if_pos ((or_congr_left count).2 hend)]
    rfl
  · rw [if_neg hend, if_neg (mt (or_congr_left count).1 hend)]
    rfl

/-- Settles O30. -/
theorem stringIterationMovesData : Obligations.StringIterationMovesData := by
  intro s i op w c hi
  have he := stringForm_runs hi
  refine ⟨fun k hk h0 => ?_, fun g f s' ps x h => ?_⟩
  · obtain ⟨t, ht, ha, -⟩ : Leaves s i s s.regs s.flags.settled s.nextEip [] 0 :=
      Leaves.intro_none he (repeatStep_zero hk h0) (by decide) rfl c (.refl s) rfl rfl rfl rfl
    exact ⟨t, ht, ha⟩
  · obtain ⟨u, io, q, n, rfl, hu, hnd, hx, hb⟩ := element_does c h
    have hf := hu.form c
    have ht := hu.over c s.segs s.cpl s.cr2 s.gdtr s.idtr s.ldtr s.tr s.inhibit s.nmiInService io
    obtain ⟨m, q', l, k', b, e, rfl⟩ := hf
    refine ⟨fun hk => ?_, fun k hk h0 => ?_⟩
    · exact Leaves.written_in he (by decide) rfl (by exact c) ht hnd hx (repeatStep_once hk hb) rfl rfl
    · have hmore := repeatStep_more (cmp := op.compares) hk h0 hb
      intro g'
      split
      case isTrue hend =>
        exact Leaves.written_in he (by decide) rfl (by exact c) ht hnd hx (hmore.trans (if_pos hend)) rfl rfl
      case isFalse hend =>
        exact Leaves.written_in he (by decide) rfl (by exact c) ht hnd hx (hmore.trans (if_neg hend)) rfl rfl

end Sys2Proof.Machine

/-! A step that runs an instruction: obligation O57. -/

namespace Sys2Proof.Machine

/-! The fetch window with paging off. -/

section
variable {s : State} (hq : s.prefetch = []) (hm : s.map = []) (hp : s.cr0.pg = false)
include hq hm hp

theorem windowByte_off (k : Nat) : windowByte s k = if s.segs.cs.limit < s.fetchOffset k then none
    else some (s.mem.read (s.segs.cs.base + s.fetchOffset k).toNat) := by
  have addr : codeAddr s (s.segs.cs.base + s.fetchOffset k) = some (s.segs.cs.base + s.fetchOffset k) := by
    rw [codeAddr, translate_off (by exact hp)]
  have byte : ∀ p, fetchedByte s p k = s.mem.read p.toNat := fun p => by
    rw [fetchedByte, State.olderValues, hq, State.codeByte, State.kindAt_none hm]
    rfl
  rw [windowByte, addr, Option.map_some, byte]

/-- The window ends at the limit of CS, or after `n` bytes. -/
theorem windowFrom_off (n k : Nat) : ∃ m ≤ n,
    windowFrom s n k = (List.range' k m).map (fun j => s.mem.read (s.segs.cs.base + s.fetchOffset j).toNat) ∧
    (∀ j < m, s.fetchOffset (k + j) ≤ s.segs.cs.limit) ∧ (m < n → s.segs.cs.limit < s.fetchOffset (k + m)) := by
  induction n generalizing k with
  | zero => exact ⟨0, le_refl 0, rfl, fun j hj => absurd hj (Nat.not_lt_zero j), fun h => absurd h (Nat.lt_irrefl 0)⟩
  | succ n ih =>
    rw [windowFrom, windowByte_off hq hm hp]
    by_cases h : s.segs.cs.limit < s.fetchOffset k
    · rw [if_pos h]
      exact ⟨0, Nat.zero_le _, rfl, fun j hj => absurd hj (Nat.not_lt_zero j), fun _ => h⟩
    · rw [if_neg h]
      obtain ⟨m, hle, hw, hin, hout⟩ := ih (k + 1)
      refine ⟨m + 1, Nat.succ_le_succ hle, ?_, fun j hj => ?_, fun hlt => ?_⟩
      · dsimp only
        rw [hw, List.range'_succ]
        rfl
      · cases j with
        | zero => exact BitVec.not_lt.1 h
        | succ j => rw [← Nat.succ_add_eq_add_succ]; exact hin j (by omega)
      · rw [← Nat.succ_add_eq_add_succ]
        exact hout (by omega)

end

/-! Decoding. -/

theorem Touches.touchBytes (n k : Nat) : Touches (touchBytes n k) := by
  induction n generalizing k with
  | zero => exact .pure ()
  | succ n ih =>
    exact Touches.get.bind fun _ => (Touches.require _ _).bind fun _ => (Touches.translate _ _ _).bind fun _ => ih _

/-- An instruction whose bytes are there, with no LOCK before it. -/
theorem fetchInstr_ok {s u : State} {i : Instr} {rest : List Byte} (hq : s.prefetch = []) (hm : s.map = [])
    (hl : s.dec.lock = false) (hd : decode s.os32 s.as32 (fetchWindow s) = .ok (i, rest))
    (ht : touchBytes ((fetchWindow s).length - rest.length) 0 s = .ok () u) :
    fetchInstr s = .ok i
      { u with dec := { u.dec with len := u.dec.len + ((fetchWindow s).length - rest.length) } } := by
  have still : (s.prefetch.isEmpty && s.map.isEmpty) = true := by rw [hq, hm]; rfl
  rw [fetchInstr, fetchFrom, M.get_bind_apply, hl]
  dsimp only
  rw [if_pos still, hd]
  dsimp only
  rw [M.bind_ok ht]
  rfl

theorem runPrefixed_exec {n : Nat} {s t : State} {i : Instr} (h : fetchInstr s = .ok i t)
    (hi : i.isPrefix = false) : runPrefixed (n + 1) s = exec i t := by
  simp only [runPrefixed, h, hi, Bool.false_eq_true, if_false]

theorem runPrefixed_next {n : Nat} {s t u : State} {i : Instr} (h : fetchInstr s = .ok i t)
    (hi : i.isPrefix = true) (hx : exec i t = .next u) : runPrefixed (n + 1) s = runPrefixed n u := by
  simp only [runPrefixed, h, hi, hx, if_true]

/-! Nothing due. -/

theorem State.dueBreakpoints_none {s : State} (h : bpEnabled s.dr7 = 0) : s.dueBreakpoints = 0 := by
  rw [State.dueBreakpoints, h]
  exact if_pos (Or.inr BitVec.and_zero)

theorem serveExternal_none {s : State} {inh : Bool} {goOn : State → Result}
    (hn : s.nmiPending = false ∨ s.nmiInService = true ∨ inh = true)
    (hi : s.pins.intr = false ∨ s.flags.ifl = false ∨ inh = true) : serveExternal inh s goOn = goOn s := by
  have nmi : (!inh && s.nmiPending && !s.nmiInService) = false := by
    rcases hn with h | h | h <;> simp [h]
  have intr : (!inh && s.pins.intr && s.flags.ifl) = false := by
    rcases hi with h | h | h <;> simp [h]
  rw [serveExternal, nmi, intr]
  rfl

theorem step_of_quiet {s : State} (hi : s.inputs = []) (hm : s.masters = []) : step s = stepRunState s := by
  rw [step, State.boundary, State.takeInput, hi, State.othersWrite_none hm]

/-- A running machine with no debug trap and no enabled breakpoint looks at NMI and INTR, then runs an instruction. -/
theorem stepRunning_clear {s : State} (hp : s.pend = ⟨false, false, 0, 0⟩) (he : bpEnabled s.dr7 = 0) :
    stepRunning s = serveExternal s.inhibit { s with inhibit := false } runInstruction := by
  have due : (if s.inhibit then (0, s) else s.dueData) = (0, s) := by
    rw [State.dueData_none (by rw [hp])]
    exact ite_self _
  have defined : ¬ bpUndefined s.dr7 &&& (0 : BitVec 4) ≠ 0 := not_not.2 BitVec.and_zero
  rw [stepRunning, he, if_neg defined]
  dsimp only
  rw [due, hp]
  dsimp only
  rw [State.dueBreakpoints_none he]
  rfl

/-- Settles O57. -/
theorem stepRunsDecoded : Obligations.StepRunsDecoded := by
  intro s u i rest hrun hin hmas hmap hpend hbp hdec hq hnmi hintr s1 n
  have hstep : step s = runInstruction s1 := by
    rw [step_of_quiet hin hmas, stepRunState, hrun]
    dsimp only
    rw [stepRunning_clear hpend hbp]
    exact serveExternal_none hnmi hintr
  refine ⟨fun hd ht => ?_, fun hp => ?_⟩
  · have hu : u.dec.len = 0 := by
      rw [((Touches.touchBytes _ _ _).1 _ _ ht).len]
      exact congrArg InProgress.len hdec
    have fetch := fetchInstr_ok (s := s1) hq hmap (congrArg InProgress.lock hdec) hd ht
    rw [hu, Nat.zero_add] at fetch
    refine ⟨fun hi => ?_, fun hi t' hx => ?_⟩
    · rw [hstep, runInstruction]
      exact runPrefixed_exec fetch hi
    · rw [hstep, runInstruction]
      exact runPrefixed_next fetch hi hx
  · have hoff : ∀ j, s1.fetchOffset j = s.eip + BitVec.ofNat 32 j := fun j => by
      rw [State.fetchOffset, congrArg InProgress.len (show s1.dec = InProgress.empty from hdec)]
      exact congrArg (fun x => s.eip + BitVec.ofNat 32 x) (Nat.zero_add j)
    have hlen : s1.dec.len = 0 := congrArg InProgress.len hdec
    obtain ⟨m, hle, hw, hin, hout⟩ := windowFrom_off (s := s1) hq hmap hp 15 0
    simp only [hoff, Nat.zero_add] at hw hin hout
    refine ⟨m, hle, ?_, hin, hout⟩
    rw [fetchWindow, hlen, List.range_eq_range']
    exact hw

end Sys2Proof.Machine

/-! Deliveries in Real Mode: obligation O38. -/

namespace Sys2Proof.Machine

/-! An attempt and its escalations. -/

section
variable {x : M Bool} {s t : State} {b : Bool} {e : Exn} {ret : Dword}

theorem attempt_ok (h : x s = .ok b t) : attempt x s = .ok (.ok b) t := by
  rw [attempt, h]

theorem attempt_exn (h : x s = .error (.exn e) t) :
    attempt x s = .ok (.error ⟨e.withExt, false⟩) (s.afterFault t e) := by
  rw [attempt, h]

theorem deliverLast_ok (h : x s = .ok b t) : deliverLast x s = .ok b t := by
  rw [deliverLast, M.bind_ok (attempt_ok h)]
  rfl

theorem deliverPlain_ok (h : x s = .ok b t) : deliverPlain x ret s = .ok b t := by
  rw [deliverPlain, M.bind_ok (attempt_ok h)]
  rfl

theorem deliverSegment_ok (h : exnOnce e ret s = .ok b t) : deliverSegment e ret s = .ok b t := by
  rw [deliverSegment, tryExn, M.bind_ok (attempt_ok h)]
  rfl

theorem deliverPage_ok (h : exnOnce e ret s = .ok b t) : deliverPage e ret s = .ok b t := by
  rw [deliverPage, tryExn, M.bind_ok (attempt_ok h)]
  rfl

/-- A delivery that succeeds at once. -/
theorem deliverExn_ok (h : exnOnce e ret s = .ok b t) : deliverExn e ret s = .ok b t := by
  cases e
  case df => exact deliverLast_ok h
  case pf => exact deliverPage_ok h
  case ts | np | ss | gp => exact deliverSegment_ok h
  all_goals exact deliverPlain_ok h

theorem deliverPlain_df (h : x s = .error (.exn .df) t) :
    deliverPlain x ret s = deliverDouble ret (s.afterFault t .df) := by
  rw [deliverPlain, M.bind_ok (attempt_exn h)]
  rfl

theorem deliverSegment_df (h : exnOnce e ret s = .error (.exn .df) t) :
    deliverSegment e ret s = deliverDouble ret (s.afterFault t .df) := by
  rw [deliverSegment, tryExn, M.bind_ok (attempt_exn h)]
  rfl

/-- A delivery other than that of exceptions 8 and 14 that fails with exception 8. -/
theorem deliverExn_df (h8 : e.vector ≠ 8) (h14 : e.vector ≠ 14) (h : exnOnce e ret s = .error (.exn .df) t) :
    deliverExn e ret s = deliverDouble ret (s.afterFault t .df) := by
  cases e
  case df => exact absurd rfl h8
  case pf => exact absurd rfl h14
  case ts | np | ss | gp => exact deliverSegment_df h
  all_goals exact deliverPlain_df h

theorem delivered_ok (h : x s = .ok b t) : delivered x s = .next t.idle := by
  rw [delivered, h]

/-- Outside Protected Mode an exception but a page fault is a Real Mode interrupt. -/
theorem exnOnce_real (hp : s.cr0.pe = false) (h14 : e.vector ≠ 14) :
    exnOnce e ret s = realInterrupt e.vector ret s := by
  have once : ∀ code, deliverOnce e.vector false ret code true s = realInterrupt e.vector ret s := fun code => by
    rw [deliverOnce, M.get_bind_apply, if_neg (by rw [hp]; decide)]
  cases e
  case pf => exact absurd rfl h14
  all_goals exact once _

end

/-! RealInterrupt. -/

section
variable {s : State} {n : Nat} {ret : Dword}

theorem realInterrupt_last (h : s.idtr.limit.toNat < 4 * n + 3) (hn : n = 8 ∨ n = 13) :
    realInterrupt n ret s = .ok true s.shutDown := by
  rw [realInterrupt, M.get_bind_apply, if_pos h, if_pos hn]
  rfl

theorem realInterrupt_short (h : s.idtr.limit.toNat < 4 * n + 3) (h8 : n ≠ 8) (h13 : n ≠ 13) :
    realInterrupt n ret s = .error (.exn .df) s := by
  rw [realInterrupt, M.get_bind_apply, if_pos h, if_neg (by rintro (h | h) <;> contradiction)]
  rfl

/-- The frame of a Real Mode interrupt. -/
def State.realFrame (s : State) : List (List Dword) := [s.realItem 1, s.realItem 2, s.realItem 3]

/-- What goes there. -/
def State.realValues (s : State) (ret : Dword) : List Nat :=
  [(s.flags.image.extractLsb' 0 16).toNat, s.segs.cs.sel.toNat, (ret.extractLsb' 0 16).toNat]

/-- The state RealInterrupt leaves, but for what is recorded of its accesses. -/
def State.realEntered (s : State) (n : Nat) (ret : Dword) : State :=
  { s with mem := s.mem.writeAll (s.realFrame.zip (s.realValues ret)), prefetch := [], regs := s.moved (-6)
           flags := { s.flags with ifl := false, tf := false, rf := false }
           segs := { s.segs with cs := loaded8086 s s.segs.cs (s.idtWord (4 * n + 2)) }
           eip := (s.idtWord (4 * n)).setWidth 32 }

/-- The state with other matches of data breakpoints recorded. -/
def State.withHits (s : State) (b : BitVec 4) : State := { s with dec := { s.dec with hits := b } }

/-- The bytes of the `k`-th item of `n` bytes pushed, paging off. -/
def State.pushItem (s : State) (n k : Nat) : List Dword :=
  addrRun (s.segs.ss.base + s.stackWrap (s.stackPtr - BitVec.ofNat 32 (n * k))) n

theorem pushLocate_off {k : Nat} (hp : s.cr0.pg = false) (h : s.pushFault n k = none) :
    ∃ b, pushLocate n k s = .ok (s.pushItem n k) (s.withHits b) := by
  have check : segCheck (s.segs.get .ss) (segFault .ss) (s.stackWrap (s.stackPtr - BitVec.ofNat 32 (n * k))) n true =
      none := h
  rw [pushLocate_apply, segLocate_apply, check]
  exact ⟨_, linLocate_off (by exact hp) ..⟩

theorem pushLocate_raises {k : Nat} {e : Exn} (h : s.pushFault n k = some e) :
    pushLocate n k s = .error (.exn e) s := by
  have check : segCheck (s.segs.get .ss) (segFault .ss) (s.stackWrap (s.stackPtr - BitVec.ofNat 32 (n * k))) n true =
      some e := h
  rw [pushLocate_apply, segLocate_apply, check]

theorem roomFault_eq (count : Nat) : s.roomFault n count = (List.range' 1 count).findSome? (s.pushFault n) := by
  rw [List.range'_eq_map_range, List.findSome?_map, State.roomFault]
  exact congrArg (fun f => (List.range count).findSome? f) (funext fun k => by rw [Function.comp, Nat.add_comm])

theorem locatePushes_off (hp : s.cr0.pg = false) (count k : Nat)
    (h : (List.range' k count).findSome? (s.pushFault n) = none) :
    ∃ b, locatePushes n count k s = .ok ((List.range' k count).map (s.pushItem n)) (s.withHits b) := by
  induction count generalizing s k with
  | zero => exact ⟨s.dec.hits, rfl⟩
  | succ c ih =>
    rw [List.range'_succ, List.findSome?_eq_none_iff] at h
    obtain ⟨b, e⟩ := pushLocate_off hp (h k List.mem_cons_self)
    obtain ⟨b', e'⟩ := ih (s := s.withHits b) hp (k + 1)
      (List.findSome?_eq_none_iff.2 fun x hx => h x (List.mem_cons_of_mem k hx))
    refine ⟨b', ?_⟩
    rw [locatePushes, M.bind_ok e, M.bind_ok e']
    rfl

/-- The first push without room raises. -/
theorem locatePushes_raises (hp : s.cr0.pg = false) (count k : Nat) {e : Exn}
    (h : (List.range' k count).findSome? (s.pushFault n) = some e) :
    ∃ b, locatePushes n count k s = .error (.exn e) (s.withHits b) := by
  induction count generalizing s k with
  | zero => cases h
  | succ c ih =>
    rw [List.range'_succ, List.findSome?_cons] at h
    rw [locatePushes]
    cases hk : s.pushFault n k with
    | some e' =>
      rw [hk] at h
      cases h
      exact ⟨s.dec.hits, M.bind_error (pushLocate_raises hk) _⟩
    | none =>
      rw [hk] at h
      obtain ⟨b, loc⟩ := pushLocate_off hp hk
      obtain ⟨b', e⟩ := ih (s := s.withHits b) hp (k + 1) h
      exact ⟨b', (M.bind_ok loc _).trans (M.bind_error e _)⟩

variable (hr : s.inReal) (c : s.closed = true)
include hr

/-- RealInterrupt without room on the stack. -/
theorem realInterrupt_room (ht : 4 * n + 3 ≤ s.idtr.limit.toNat) {e : Exn} (h : s.roomFault 2 3 = some e) :
    ∃ b, realInterrupt n ret s = .error (.exn e) (s.withHits b) := by
  obtain ⟨-, hpg, -⟩ := hr
  rw [roomFault_eq] at h
  obtain ⟨b, loc⟩ := locatePushes_raises hpg 3 1 h
  exact ⟨b, by rw [realInterrupt, M.get_bind_apply, if_neg (Nat.not_lt.2 ht), M.bind_error loc]⟩

include c

theorem realInterrupt_enters (h : s.canEnter n) :
    ∃ b, realInterrupt n ret s = .ok false ((s.realEntered n ret).withHits b) := by
  obtain ⟨hpe, hpg, -⟩ := hr
  obtain ⟨ht, hroom⟩ := h
  rw [roomFault_eq] at hroom
  obtain ⟨b, loc⟩ := locatePushes_off hpg 3 1 hroom
  have word : ∀ k, sysRead16 (s.idtr.base + BitVec.ofNat 32 k) (s.withHits b) = .ok (s.idtWord k) (s.withHits b) :=
    fun k => sysRead16_off (by exact c) (by exact hpg) _
  obtain ⟨q, store⟩ := memWriteAll_closed (s := s.withHits b) (by exact c) s.realFrame (s.realValues ret)
  refine ⟨b, ?_⟩
  rw [realInterrupt, M.get_bind_apply, if_neg (Nat.not_lt.2 ht), M.bind_ok loc, M.bind_ok (word _),
    M.bind_ok (word _)]
  refine (M.bind_ok store _).trans ?_
  rw [M.bind_ok (moveStackPtr_moved _ _)]
  have load := loadReal_eq s s.segs.cs (s.idtWord (4 * n + 2))
  rw [State.realEntered, ← load]
  rfl

end

/-! What is left. -/

/-- After a delivery nothing is recorded of data breakpoints: the step ends as an instruction that matched none. -/
theorem State.idle_eq_finish {s y : State} (h : s.flags.tf = false) : y.idle = s.finish (y.withHits 0) .keepRf := by
  have quiet : (y.withHits 0).noteHits = y.withHits 0 := by
    rw [State.noteHits, if_pos]
    exact BitVec.zero_and
  rw [State.finish, quiet, h]
  simp only [Bool.false_and, Bool.or_false]
  rfl

/-- The stack offsets of two of the three words differ by 2 or 4, in 16 or in 32 bits. -/
theorem State.realItem_apart (s : State) {i j : Nat} (hi : 1 ≤ i) (hij : i < j) (hj : j ≤ 3) {a : Dword}
    (h : a ∈ s.realItem i) : a ∉ s.realItem j := by
  intro h'
  obtain ⟨x, hx, rfl⟩ := mem_addrRun.1 h
  obtain ⟨y, hy, e⟩ := mem_addrRun.1 h'
  rw [add_assoc, add_assoc, add_right_inj, State.stackWrap, State.stackWrap] at e
  split at e
  · bv_omega
  · have e := congrArg BitVec.toNat e
    simp only [BitVec.toNat_add, BitVec.toNat_setWidth, BitVec.extractLsb'_toNat, BitVec.toNat_sub, BitVec.toNat_ofNat,
      Nat.shiftRight_zero] at e
    omega

theorem mem_realFrame {s : State} {a : Dword} :
    a ∈ s.realItem 1 ++ s.realItem 2 ++ s.realItem 3 ↔ a ∈ s.realFrame.flatten := by
  simp [State.realFrame]

theorem flags_image_low (f : Flags) : (f.image.extractLsb' 0 16).toNat = f.image.toNat % 65536 := by
  rw [BitVec.extractLsb'_toNat, Nat.shiftRight_zero]

section
variable {s : State} {n : Nat} {ret : Dword} (c : s.closed = true)
include c

/-- The three words as the handler finds them. -/
theorem realEntered_reads : let m := (s.realEntered n ret).mem
    m.readAt (s.realItem 1) = s.flags.image.toNat % 65536 ∧ m.readAt (s.realItem 2) = s.segs.cs.sel.toNat ∧
    m.readAt (s.realItem 3) = ret.toNat % 65536 := by
  have fits : ∀ (x : Word) k, x.toNat < 256 ^ (s.realItem k).length := fun x k => by
    rw [State.realItem, length_addrRun]
    exact x.isLt
  have distinct : ∀ k, (s.realItem k).Nodup := fun k => nodup_addrRun _ (by decide)
  have apart : ∀ i j, 1 ≤ i → i < j → j ≤ 3 → ∀ a ∈ s.realItem i, a ∉ s.realItem j :=
    fun i j hi hij hj _ ha => s.realItem_apart hi hij hj ha
  have wf := s.closed_wf c
  refine ⟨?_, ?_, ?_⟩
  · exact (Memory.readAt_writeAt_other _ _ _ (apart 1 3 (by decide) (by decide) (by decide))).trans
      ((Memory.readAt_writeAt_other _ _ _ (apart 1 2 (by decide) (by decide) (by decide))).trans
        ((Memory.readAt_writeAt_same wf (distinct 1) (fits _ 1)).trans (flags_image_low _)))
  · exact (Memory.readAt_writeAt_other _ _ _ (apart 2 3 (by decide) (by decide) (by decide))).trans
      (Memory.readAt_writeAt_same (Memory.wf_writeAt _ _ wf) (distinct 2) (fits _ 2))
  · have wf' := Memory.wf_writeAt (s.realItem 2) s.segs.cs.sel.toNat (Memory.wf_writeAt (s.realItem 1)
      (s.flags.image.extractLsb' 0 16).toNat wf)
    refine (Memory.readAt_writeAt_same wf' (distinct 3) (fits _ 3)).trans ?_
    rw [BitVec.extractLsb'_toNat, Nat.shiftRight_zero]

/-- The end of the step in which RealInterrupt was executed. -/
theorem realEntry_finish (b : BitVec 4) :
    RealEntry s n ret ((s.inRealCS (s.idtWord (4 * n + 2))).noTrap.finish
      ((s.realEntered n ret).withHits b) .keepRf) := by
  obtain ⟨flags, cs, ip⟩ := realEntered_reads (n := n) (ret := ret) c
  have after := After.intro (s := (s.inRealCS (s.idtWord (4 * n + 2))).noTrap)
    (v := (s.realEntered n ret).withHits b) (stored := s.realItem 1 ++ s.realItem 2 ++ s.realItem 3) (by exact c)
    (.refl _) .keepRf (by decide) rfl
    (fun a ha => Memory.read_writeAll_zip _ _ (mt mem_realFrame.2 ha))
  refine ⟨after, ?_, ?_, ?_⟩ <;> rw [State.finish_mem]
  · exact flags
  · exact cs
  · exact ip

/-- The same where nothing but the delivery was done. -/
theorem realEntry_idle (b : BitVec 4) : RealEntry s n ret ((s.realEntered n ret).withHits b).idle := by
  rw [State.idle_eq_finish (s := (s.inRealCS (s.idtWord (4 * n + 2))).noTrap) rfl]
  exact realEntry_finish c 0

end

/-- A delivery that comes to RealInterrupt enters its vector, and leaves what is noted of debug traps. -/
theorem delivered_real {s : State} {n : Nat} {ret : Dword} {x : M Bool} (hr : s.inReal) (c : s.closed = true)
    (h : s.canEnter n) (hx : ∀ b, realInterrupt n ret s = .ok false ((s.realEntered n ret).withHits b) →
      x s = .ok false ((s.realEntered n ret).withHits b)) :
    ∃ t, delivered x s = .next t ∧ RealEntry s n ret t ∧ t.dr6 = s.dr6 ∧ t.pend = s.pend := by
  obtain ⟨b, e⟩ := realInterrupt_enters (ret := ret) hr c h
  exact ⟨_, delivered_ok (hx b e), realEntry_idle c b, rfl, rfl⟩

/-- An exception is delivered in a closed world if that is where it was raised. -/
theorem closed_afterFault {s u : State} (c : s.closed = true) (cu : u.closed = true) (e : Exn) :
    (s.afterFault u e).idle.closed = true :=
  State.closed_iff.2 ⟨by simpa [State.idle] using u.closed_wf cu, by simpa [State.idle] using u.closed_masters cu,
    by simpa [State.idle] using s.closed_map c⟩

/-- Settles O38. -/
theorem realModeDeliverySavesAndJumps : Obligations.RealModeDeliverySavesAndJumps := by
  intro s u e hr c cu h14 v short
  have real : v.inReal := by
    obtain ⟨hpe, hpg, hvm⟩ := hr
    have mode : v.cr0 = s.cr0 ∧ v.flags = s.flags := by constructor <;> simp [v, State.idle]
    rw [← mode.1] at hpe hpg
    rw [← mode.2] at hvm
    exact ⟨hpe, hpg, hvm⟩
  have cv : v.closed = true := closed_afterFault c cu e
  have table : v.idtr = s.idtr := by simp [v, State.idle]
  have first : ∀ b t, realInterrupt e.vector s.eip v = .ok b t → deliverExn e s.eip v = .ok b t :=
    fun b t h => deliverExn_ok ((exnOnce_real real.1 h14).trans h)
  have second : short → e.vector ≠ 8 → e.vector ≠ 13 → ∀ b t, realInterrupt 8 s.eip v = .ok b t →
      deliverExn e s.eip v = .ok b t := fun hs h8 h13 b t h => by
    have fails := realInterrupt_short (ret := s.eip) (by rw [table]; exact hs) h8 h13
    rw [deliverExn_df h8 h14 ((exnOnce_real real.1 h14).trans fails)]
    exact deliverLast_ok ((exnOnce_real (e := .df) real.1 (by decide)).trans h)
  refine ⟨fun h => ?_, fun hs h13 h8 h => ?_, fun hs h35 => ?_⟩
  · obtain ⟨t, ht, entry, -⟩ := delivered_real real cv h fun b => first _ _
    exact ⟨t, ht, entry⟩
  · obtain ⟨t, ht, entry, -⟩ := delivered_real real cv h fun b => second hs h8 h13 _ _
    exact ⟨t, ht, entry⟩
  have shut : deliverExn e s.eip v = .ok true v.shutDown := by
    by_cases hn : e.vector = 8 ∨ e.vector = 13
    · exact first _ _ (realInterrupt_last (by rw [table]; exact hs) hn)
    · obtain ⟨h8, h13⟩ := not_or.1 hn
      exact second hs h8 h13 _ _ (realInterrupt_last (by rw [table]; exact h35) (.inl rfl))
  have stack := State.shutDown_real_stack real.1
  refine ⟨v.shutDown.idle, delivered_ok shut, rfl, ?_, ?_, fun sr => ?_⟩
  · exact stack.2.trans (by simp [v, State.idle])
  · exact stack.1.trans (by simp [v, State.idle])
  · have segs : v.segs = s.segs := by simp [v, State.idle]
    have seg := State.shutDown_real_seg real.1 sr
    rw [segs] at seg
    refine seg.imp_right fun ⟨sel, hsel⟩ => ⟨sel, ?_⟩
    rw [← loadReal_eq, if_neg (by rw [hr.1]; decide)]
    exact hsel

end Sys2Proof.Machine

/-! The boundary of a step in Real Mode: obligation O58. -/

namespace Sys2Proof.Machine

/-! Deliveries at a boundary. -/

section
variable {s : State} (hr : s.inReal) (c : s.closed = true)

theorem deliverOnce_real {n : Nat} {software : Bool} {ret : Dword} {code : Option Word} {rf : Bool}
    {r : EStateM.Result Trap State Bool} (e : realInterrupt n ret s = r) (h : s.cr0.pe = false) :
    deliverOnce n software ret code rf s = r := by
  rw [deliverOnce, M.get_bind_apply, if_neg (by rw [h]; decide), e]

/-- The state in which a debug trap is delivered. -/
def State.reported (s : State) (bs bt : Bool) (bits : BitVec 4) : State :=
  { s with
    run := .running
    dr6 := { b := s.dr6.b ||| bits, bd := s.dr6.bd, bs := s.dr6.bs || bs, bt := s.dr6.bt || bt }
    pend := { s.pend with bs := s.pend.bs && !bs, bt := s.pend.bt && !bt } }

theorem RealEntry.anyFree {s t : State} {n : Nat} {ret : Dword} {k : Nat}
    (h : RealEntry { s with free := k } n ret t) : RealEntry s n ret t :=
  ⟨{ h.after with }, h.flags, h.cs, h.ip⟩

include hr c

theorem reportDebug_real {bs bt rf : Bool} {bits : BitVec 4} (h : s.canEnter 1) :
    ∃ t, reportDebug bs bt bits rf s = .next t ∧ RealEntry (s.reported bs bt bits) 1 s.eip t ∧
      t.dr6 = (s.reported bs bt bits).dr6 ∧ t.pend = (s.reported bs bt bits).pend := by
  obtain ⟨t, ht, entry, hd, hp⟩ := delivered_real (s := { s.reported bs bt bits with free := s.free + 1 })
    (x := deliverPlain (deliverOnce 1 false s.eip none rf) s.eip) (ret := s.eip) hr c h
    fun b e => deliverPlain_ok (deliverOnce_real e hr.1)
  exact ⟨t, ht, entry.anyFree, hd, hp⟩

theorem takeNmi_real {deliver : M Bool → M Bool} (hd : ∀ {x : M Bool} {u v : State}, x u = .ok false v →
    deliver x u = .ok false v) (h : s.canEnter 2) :
    ∃ t, takeNmi deliver s = .next t ∧
      RealEntry { s with run := .running, nmiPending := false, nmiInService := true } 2 s.eip t := by
  obtain ⟨t, ht, entry, -⟩ := delivered_real
    (s := { s with run := .running, nmiPending := false, nmiInService := true }) (ret := s.eip) (x := do
      let viaTask ← deliver (deliverOnce 2 false s.eip none s.flags.rf)
      if viaTask then pure true
      else do
        modify fun u : State => { u with flags := { u.flags with ifl := false } }
        pure false) hr c h
    fun b e => (M.bind_ok (hd (deliverOnce_real e hr.1)) _).trans rfl
  exact ⟨t, ht, entry⟩

theorem takeIntr_real (h : s.canEnter s.pins.vector.toNat) :
    ∃ t, takeIntr s = .next t ∧ RealEntry { s with run := .running } s.pins.vector.toNat s.eip t := by
  obtain ⟨t, ht, entry, -⟩ := delivered_real (s := { s with run := .running }) (ret := s.eip)
    (n := s.pins.vector.toNat) (x :=
      let once := deliverOnce s.pins.vector.toNat false s.eip none s.flags.rf
      if s.pins.vector = 8 then deliverLast once else deliverPlain once s.eip) hr c h
    fun b e => by
      have once := deliverOnce_real (software := false) (code := none) (rf := s.flags.rf) e hr.1
      dsimp only
      split
      · exact deliverLast_ok once
      · exact deliverPlain_ok once
  exact ⟨t, ht, entry⟩

end

/-! What is due. -/

theorem takeExact_none {s : State} (h : s.pend.data = 0) : s.takeExact = (0, s) := by
  rw [State.takeExact, h]
  exact if_pos BitVec.zero_and

/-- All that is held was matched exactly: all of it is reported. -/
theorem takeExact_all {s : State} (h0 : s.pend.data ≠ 0) (h : s.pend.data &&& ~~~s.pend.exact = 0) :
    s.takeExact = (s.pend.data, { s with pend := { s.pend with data := 0, exact := 0 } }) := by
  have now : s.pend.data &&& s.pend.exact = s.pend.data := by
    generalize s.pend.data = x at *
    generalize s.pend.exact = y at *
    revert x y
    decide
  have rest : s.pend.data &&& ~~~s.pend.data = 0 := by
    generalize s.pend.data = x
    revert x
    decide
  rw [State.takeExact, now, rest]
  exact if_neg h0

theorem decideHeld_exact {s : State} (h : s.pend.data &&& ~~~s.pend.exact = 0) : s.decideHeld = s := if_pos h

theorem stepRunState_running {s : State} (h : s.run = .running) : stepRunState s = stepRunning s := by
  rw [stepRunState, h]

theorem stepRunState_halted {s : State} (h : s.run = .halted) : stepRunState s = stepHalted s := by
  rw [stepRunState, h]

theorem stepRunState_shutdown {s : State} (h : s.run = .shutdown) : stepRunState s = stepShutdown s := by
  rw [stepRunState, h]

/-- A step of a machine that runs or is halted, with no instruction breakpoint and no choice about data breakpoints. -/
theorem step_awake {s : State} {bits : BitVec 4} {p : PendingTrap} (hi : s.inputs = []) (hm : s.masters = [])
    (hrun : s.run ≠ .shutdown) (hinh : s.inhibit = false) (hu : bpUndefined s.dr7 &&& bpEnabled s.dr7 = 0)
    (he : s.executionMatches &&& bpEnabled s.dr7 = 0) (hbt : s.pend.bt = false)
    (hx : s.pend.data &&& ~~~s.pend.exact = 0) (ht : s.takeExact = (bits, { s with pend := p })) :
    ∃ goOn : State → Result, (s.run = .halted → goOn = .next) ∧ step s =
      if s.pend.bs || decide (bits ≠ 0) then reportDebug s.pend.bs false bits s.flags.rf { s with pend := p }
      else serveExternal false { s with pend := p } goOn := by
  have awake : ({ s with pend := p, inhibit := false } : State) = { s with pend := p } := by rw [← hinh]
  rw [step_of_quiet hi hm]
  by_cases hr : s.run = .running
  · refine ⟨runInstruction, fun h => absurd (hr.symm.trans h) (by decide), ?_⟩
    have noBreak : ({ s with pend := p } : State).dueBreakpoints = 0 := if_pos (Or.inr he)
    rw [stepRunState_running hr, stepRunning, if_neg (not_not.2 hu), hinh, hbt, State.dueData, decideHeld_exact hx, ht]
    simp only [Bool.false_eq_true, if_false, noBreak, awake]
    simp
  · have hh : s.run = .halted := by
      cases h : s.run with
      | running => exact absurd h hr
      | halted => rfl
      | shutdown => exact absurd h hrun
    refine ⟨.next, fun _ => rfl, ?_⟩
    rw [stepRunState_halted hh, stepHalted, hinh, hbt, ht]
    simp only [Bool.false_eq_true, if_false, awake]
    simp

/-! External interrupts. -/

section
variable {s : State} {goOn : State → Result}

theorem serveExternal_nmi (hn : s.nmiPending = true) (hs : s.nmiInService = false) :
    serveExternal false s goOn = takeNmi (fun once => deliverPlain once s.eip) s := by
  rw [serveExternal, hn, hs]
  rfl

theorem serveExternal_intr (hn : s.nmiPending = false ∨ s.nmiInService = true) (hi : s.pins.intr = true)
    (hf : s.flags.ifl = true) : serveExternal false s goOn = takeIntr s := by
  have nmi : (!false && s.nmiPending && !s.nmiInService) = false := by rcases hn with h | h <;> simp [h]
  rw [serveExternal, nmi, hi, hf]
  rfl

end

/-- Whether NMI ends a shutdown in Real Mode. -/
def State.nmiWakes (s : State) : Prop :=
  s.nmiPending = true ∧ s.nmiInService = false ∧ 0x17 ≤ s.idtr.limit.toNat ∧ 5 < (s.regs.read .w16 .esp).toNat

open Classical in
theorem stepShutdown_real {s : State} (h : s.cr0.pe = false) :
    stepShutdown s = if s.nmiWakes then takeNmi deliverLast s else .next s := by
  have wakes : (s.nmiPending && !s.nmiInService && (s.cr0.pe || (decide (0x17 ≤ s.idtr.limit.toNat) &&
      decide (5 < (s.regs.esp.extractLsb' 0 16).toNat)))) = true ↔ s.nmiWakes := by
    simp only [h, State.nmiWakes, Bool.false_or, Bool.and_eq_true, Bool.not_eq_true', decide_eq_true_eq, and_assoc]
    exact Iff.rfl
  rw [stepShutdown, if_congr wakes rfl rfl]

/-! What an instruction notes of its data breakpoints. -/

theorem finish_notes_none (s : State) {t : State} (d : Done) (h : t.dec.hits &&& bpEnabled t.dr7 = 0) :
    (s.finish t d).dr6 = t.dr6 ∧ (s.finish t d).pend.data = t.pend.data := by
  have quiet : t.noteHits = t := if_pos h
  rw [State.finish, quiet]
  exact ⟨rfl, rfl⟩

theorem finish_notes_all (s : State) {t : State} (d : Done) (h : t.dec.hits &&& bpEnabled t.dr7 ≠ 0) {i : Nat}
    (hi : t.dec.hits.getLsbD i = true ∨ t.dr6.b.getLsbD i = true) : (s.finish t d).dr6.b.getLsbD i = true := by
  have noted : t.noteHits.dr6.b = t.dr6.b ||| (t.dec.hits |||
      ((Config.freeValue t.free).setWidth 4 &&& bpUndefined t.dr7)) := by rw [State.noteHits, if_neg h]
  have bits : (s.finish t d).dr6.b = t.noteHits.dr6.b := rfl
  rw [bits, noted, BitVec.getLsbD_or, BitVec.getLsbD_or]
  rcases hi with hi | hi <;> simp [hi]

/-! The events, one by one. -/

section
variable {s : State} (hr : s.inReal) (c : s.closed = true) (hi : s.inputs = [])

section
variable (hrun : s.run ≠ .shutdown) (hinh : s.inhibit = false) (hbt : s.pend.bt = false)
include c hi hrun hinh hbt

section
variable (hbp : bpEnabled s.dr7 = 0) (hdata : s.pend.data = 0)
include hbp hdata

/-- With no data breakpoint pending a step looks for a single-step trap, then for NMI and INTR. -/
theorem step_undisturbed : ∃ goOn : State → Result, (s.run = .halted → goOn = .next) ∧
    step s = if s.pend.bs then reportDebug true false 0 s.flags.rf s else serveExternal false s goOn := by
  obtain ⟨goOn, hgo, hstep⟩ := step_awake hi (s.closed_masters c) hrun hinh (by rw [hbp]; exact BitVec.and_zero)
    (by rw [hbp]; exact BitVec.and_zero) hbt (by rw [hdata]; exact BitVec.zero_and) (takeExact_none hdata)
  refine ⟨goOn, hgo, hstep.trans ?_⟩
  cases hbs : s.pend.bs with
  | true => rfl
  | false => rfl

include hr

theorem step_singleStep (hbs : s.pend.bs = true) (hc : s.canEnter 1) : ∃ t, step s = .next t ∧
    RealEntry { s with run := .running, dr6 := { s.dr6 with bs := true }, pend := { s.pend with bs := false } }
      1 s.eip t := by
  obtain ⟨goOn, -, hstep⟩ := step_undisturbed c hi hrun hinh hbt hbp hdata
  obtain ⟨t, ht, entry, -⟩ := reportDebug_real (bs := true) (bt := false) (rf := s.flags.rf) (bits := 0) hr c hc
  refine ⟨t, (hstep.trans (if_pos hbs)).trans ht, ?_⟩
  have reported : s.reported true false 0 =
      { s with run := .running, dr6 := { s.dr6 with bs := true }, pend := { s.pend with bs := false } } := by
    simp [State.reported]
  rwa [reported] at entry

theorem step_nmi (hbs : s.pend.bs = false) (hn : s.nmiPending = true) (hs : s.nmiInService = false)
    (hc : s.canEnter 2) : ∃ t, step s = .next t ∧
      RealEntry { s with run := .running, nmiPending := false, nmiInService := true } 2 s.eip t := by
  obtain ⟨goOn, -, hstep⟩ := step_undisturbed c hi hrun hinh hbt hbp hdata
  rw [hstep, if_neg (by rw [hbs]; decide), serveExternal_nmi hn hs]
  exact takeNmi_real hr c deliverPlain_ok hc

theorem step_intr (hbs : s.pend.bs = false) (hn : s.nmiPending = false ∨ s.nmiInService = true)
    (hint : s.pins.intr = true) (hif : s.flags.ifl = true) (hc : s.canEnter s.pins.vector.toNat) :
    ∃ t, step s = .next t ∧ RealEntry { s with run := .running } s.pins.vector.toNat s.eip t := by
  obtain ⟨goOn, -, hstep⟩ := step_undisturbed c hi hrun hinh hbt hbp hdata
  rw [hstep, if_neg (by rw [hbs]; decide), serveExternal_intr hn hint hif]
  exact takeIntr_real hr c hc

omit hr in
theorem step_staysHalted (hbs : s.pend.bs = false) (hn : s.nmiPending = false ∨ s.nmiInService = true)
    (hh : s.run = .halted) (hint : s.pins.intr = false ∨ s.flags.ifl = false) : step s = .next s := by
  obtain ⟨goOn, hgo, hstep⟩ := step_undisturbed c hi hrun hinh hbt hbp hdata
  rw [hstep, if_neg (by rw [hbs]; decide), hgo hh]
  exact serveExternal_none (hn.imp_right .inl) (hint.imp_right .inl)

end

include hr

/-- Data breakpoints matched under GE or LE, together with a pending single step. -/
theorem step_dataBreakpoints (hu : bpUndefined s.dr7 &&& bpEnabled s.dr7 = 0)
    (he : s.executionMatches &&& bpEnabled s.dr7 = 0) (h0 : s.pend.data ≠ 0)
    (hx : s.pend.data &&& ~~~s.pend.exact = 0) (hc : s.canEnter 1) :
    let dr6 := { s.dr6 with b := s.dr6.b ||| s.pend.data, bs := s.dr6.bs || s.pend.bs }
    ∃ t, step s = .next t ∧ t.dr6 = dr6 ∧ t.pend = ⟨false, false, 0, 0⟩ ∧
      RealEntry { s with run := .running, dr6 := dr6, pend := ⟨false, false, 0, 0⟩ } 1 s.eip t := by
  intro dr6
  obtain ⟨goOn, -, hstep⟩ := step_awake hi (s.closed_masters c) hrun hinh hu he hbt hx (takeExact_all h0 hx)
  obtain ⟨t, ht, entry, hd, hp⟩ := reportDebug_real (s := { s with pend := { s.pend with data := 0, exact := 0 } })
    (bs := s.pend.bs) (bt := false) (rf := s.flags.rf) (bits := s.pend.data) hr c hc
  have reported : ({ s with pend := { s.pend with data := 0, exact := 0 } } : State).reported s.pend.bs false
      s.pend.data = { s with run := .running, dr6 := dr6, pend := ⟨false, false, 0, 0⟩ } := by
    simp only [State.reported, dr6, hbt, Bool.or_false, Bool.false_and, Bool.and_not_self]
  rw [reported] at entry hd hp
  exact ⟨t, (hstep.trans (if_pos (by rw [decide_eq_true h0, Bool.or_true]))).trans ht, hd, hp, entry⟩

end

include hr c hi

theorem step_shutdown (hrun : s.run = .shutdown) :
    (s.nmiWakes → s.canEnter 2 → ∃ t, step s = .next t ∧
      RealEntry { s with run := .running, nmiPending := false, nmiInService := true } 2 s.eip t) ∧
    (¬ s.nmiWakes → step s = .next s) := by
  rw [step_of_quiet hi (s.closed_masters c), stepRunState_shutdown hrun, stepShutdown_real hr.1]
  refine ⟨fun h hc => ?_, fun h => if_neg h⟩
  rw [if_pos h]
  exact takeNmi_real hr c deliverLast_ok hc

end

/-- Settles O58. -/
theorem boundaryEventsAreTaken : Obligations.BoundaryEventsAreTaken := by
  refine ⟨?_, ?_, ?_⟩
  · intro s hr c hi hinh hbp hdec hbt hdata awake served
    refine ⟨fun hrun => ⟨fun hbs hc => ?_, fun hbs hn hs hc => ?_, fun hbs hn =>
      ⟨fun hint hif hc => ?_, fun hh hint => ?_⟩⟩, fun hrun => ?_⟩
    · exact step_singleStep hr c hi hrun hinh hbt hbp hdata hbs hc
    · exact step_nmi hr c hi hrun hinh hbt hbp hdata hbs hn hs hc
    · exact step_intr hr c hi hrun hinh hbt hbp hdata hbs hn hint hif hc
    · exact step_staysHalted c hi hrun hinh hbt hbp hdata hbs hn hh hint
    · obtain ⟨wakes, stays⟩ := step_shutdown hr c hi hrun
      refine ⟨fun hn hs hroom hc => wakes ⟨hn, hs, hroom⟩ hc, fun h => stays fun ⟨hn, hs, hroom⟩ => ?_⟩
      rcases h with h | h | h
      · exact absurd (hn.symm.trans h) (by decide)
      · exact absurd (h.symm.trans hs) (by decide)
      · exact h hroom
  · intro s t d on u
    exact ⟨finish_notes_none s d, fun h => ⟨State.noteHits_data t, fun i _ hb => finish_notes_all s d h hb⟩⟩
  · intro s hr c hi hrun hinh hdec hu he hbt h0 hx hc
    exact step_dataBreakpoints hr c hi hrun hinh hbt hu he h0 hx hc

end Sys2Proof.Machine

/-! Deliveries through gates and software interrupts: obligations O37 and O39. -/

namespace Sys2Proof.Machine

/-! Pushes of a frame. -/

theorem length_locatePushes {n count k : Nat} {s u : State} {ls : List (List Dword)}
    (h : locatePushes n count k s = .ok ls u) : ls.length = count := by
  induction count generalizing k s u ls with
  | zero => cases h; rfl
  | succ c ih =>
    obtain ⟨p, v, hp, h⟩ := M.bind_eq_ok h
    obtain ⟨ps, w, hps, h⟩ := M.bind_eq_ok h
    cases h
    rw [List.length_cons, ih hps]

/-- The slot of an error code in a frame of 32-bit items. -/
theorem codeSlot_apply (code : Option Word) (s : State) : ∃ he < 65536, codeSlot true code s =
    .ok (code.toList.map fun c => he * 65536 + c.toNat) { s with free := s.free + code.toList.length } := by
  cases code with
  | none => exact ⟨0, by decide, rfl⟩
  | some c =>
    obtain ⟨he, -, hlt, slot⟩ := selectorSlot_apply true c s
    exact ⟨he, hlt, (M.bind_ok slot _).trans rfl⟩

/-- The same accesses over a state with other flags. -/
theorem Touched.overFlags {s u : State} (h : Touched s u) (f : Flags) :
    Touched { s with flags := f } { u with flags := f } where
  rest := by rw [h.rest]
  wf := h.wf
  tlb := h.tlb
  closed c := h.closed c
  bytes c a := h.bytes c a
  direct c hq := congrArg (fun y : State => { y with flags := f }) (h.direct c hq)

/-! Gates. -/

section
variable {s u : State} {n x : Nat} {software rf : Bool} {ret : Dword} {code : Option Word}

theorem readDesc_ok {lin : Dword} (h : sysRead lin 8 s = .ok x u) : readDesc lin s = .ok (BitVec.ofNat 64 x) u := by
  rw [readDesc, M.bind_ok h]
  rfl

/-- The code of an error about a gate. -/
def gateCode (n : Nat) : Word := BitVec.ofNat 16 (8 * n + 2)

theorem gateInterrupt_short (h : s.idtr.limit.toNat < 8 * n + 7) :
    gateInterrupt n software ret code rf s = .error (.exn (.gp (gateCode n))) s := by
  rw [gateInterrupt, M.get_bind_apply]
  dsimp only
  rw [require_fail (decide_eq_false (Nat.not_le.2 h))]
  rfl

/-- Whether a descriptor is a gate that an interrupt may go through. -/
def IsGate (g : Descriptor) : Prop := descS g = false ∧ descType g ∈ [5, 6, 7, 14, 15]

theorem isGate_iff (g : Descriptor) : IsGate g ↔ (!descS g && (descType g == 5 || descType g == 6 ||
    descType g == 7 || descType g == 14 || descType g == 15)) = true := by
  simp only [IsGate, Bool.and_eq_true, Bool.not_eq_true', Bool.or_eq_true, beq_iff_eq, List.mem_cons,
    List.not_mem_nil, or_false, or_assoc]

/-- A gate that software may not use is hidden from it. -/
theorem gateVisible_eq (software : Bool) (g : Descriptor) (cpl : BitVec 2) : (!software || decide (cpl ≤ descDpl g)) =
    decide (software = true → cpl.toNat ≤ (descDpl g).toNat) := by
  cases software <;> simp [BitVec.le_def]

section
variable (ht : 8 * n + 7 ≤ s.idtr.limit.toNat)
  (hr : sysRead (s.idtr.base + BitVec.ofNat 32 (8 * n)) 8 s = .ok x u)
include ht hr

theorem gateInterrupt_wrong (h : ¬ IsGate (BitVec.ofNat 64 x)) :
    gateInterrupt n software ret code rf s = .error (.exn (.gp (gateCode n))) u := by
  rw [gateInterrupt, M.get_bind_apply]
  dsimp only
  rw [require_pass (decide_eq_true ht), M.bind_ok (readDesc_ok hr),
    require_fail (Bool.not_eq_true _ |>.mp (mt (isGate_iff _).2 h))]
  rfl

variable (hg : IsGate (BitVec.ofNat 64 x))
include hg

theorem gateInterrupt_hidden (h : (descDpl (BitVec.ofNat 64 x)).toNat < s.cpl.toNat) :
    gateInterrupt n true ret code rf s = .error (.exn (.gp (gateCode n))) u := by
  rw [gateInterrupt, M.get_bind_apply]
  dsimp only
  rw [require_pass (decide_eq_true ht), M.bind_ok (readDesc_ok hr), require_pass ((isGate_iff _).1 hg),
    gateVisible_eq, require_fail (decide_eq_false fun hle => absurd (hle rfl) (Nat.not_le.2 h))]
  rfl

theorem gateInterrupt_absent (h : software = true → s.cpl.toNat ≤ (descDpl (BitVec.ofNat 64 x)).toNat)
    (hp : descP (BitVec.ofNat 64 x) = false) :
    gateInterrupt n software ret code rf s = .error (.exn (.np (gateCode n))) u := by
  rw [gateInterrupt, M.get_bind_apply]
  dsimp only
  rw [require_pass (decide_eq_true ht), M.bind_ok (readDesc_ok hr), require_pass ((isGate_iff _).1 hg),
    gateVisible_eq, require_pass (decide_eq_true h), require_fail hp]
  rfl

end

end

/-! A gate to the same level. -/

/-- An Intel386 DX interrupt or trap gate, by its type. -/
theorem descType_of_kind {g : Descriptor} (h : g.extractLsb' 41 4 = 7) :
    descS g = false ∧ descType g = 14 + (g.getLsbD 40).toNat := by
  have h := congrArg BitVec.toNat h
  have h7 : (7 : BitVec 4).toNat = 7 := rfl
  rw [BitVec.extractLsb'_toNat, Nat.shiftRight_eq_div_pow, h7] at h
  rw [descS, descType, BitVec.extractLsb'_toNat, Nat.shiftRight_eq_div_pow, BitVec.getLsbD, BitVec.getLsbD,
    Nat.testBit_eq_decide_div_mod_eq, Nat.testBit_eq_decide_div_mod_eq]
  refine ⟨decide_eq_false (by omega), ?_⟩
  by_cases hb : g.toNat / 2 ^ 40 % 2 = 1
  · rw [decide_eq_true hb, Bool.toNat_true]
    omega
  · rw [decide_eq_false hb, Bool.toNat_false]
    omega

/-- What an interrupt finds at a gate is the present segment it enters. -/
theorem GateFound.wide {s v : State} {n : Nat} {g d : Descriptor} {a : Dword} (h : GateFound s n g a d v) :
    IsGate g ∧ (descType g == 14 || descType g == 15) = true ∧ (descType g == 6 || descType g == 14) = !g.getLsbD 40 ∧
      descType g ≠ 5 := by
  obtain ⟨hs, ht⟩ := descType_of_kind h.kind
  rw [IsGate, hs, ht]
  cases g.getLsbD 40 <;> decide

theorem GateFound.notInner {s v : State} {n : Nat} {g d : Descriptor} {a : Dword} (h : GateFound s n g a d v) :
    (!descConforming d && decide (descDpl d < s.cpl)) = false ∧ descDpl d ≤ s.cpl := by
  obtain ⟨-, he⟩ := h.isCode
  rw [descConforming, he, BitVec.le_def]
  rcases h.sameLevel with ⟨hc, hle⟩ | ⟨hc, heq⟩
  · rw [hc]
    exact ⟨rfl, hle⟩
  · rw [hc, heq]
    exact ⟨by simp, le_refl _⟩

section
variable {s v : State} {n : Nat} {g d : Descriptor} {a ret : Dword} {code : Option Word} {software rf : Bool}

/-- The flags behind a gate that is no task gate. -/
def Flags.gated (f : Flags) (g : Descriptor) : Flags :=
  { f with tf := false, nt := false, rf := false, vm := false, ifl := f.ifl && g.getLsbD 40 }

theorem Flags.inHandler_eq_gated (f : Flags) (g : Descriptor) : f.inHandler (!g.getLsbD 40) = f.gated g := by
  rw [Flags.inHandler, Bool.not_not]
  rfl

/-- GateInterrupt through such a gate. -/
theorem gateInterrupt_same (h : GateFound s n g a d v) (hv : s.flags.vm = false)
    (hg : software = true → s.cpl.toNat ≤ (descDpl g).toNat) :
    gateInterrupt n software ret code rf s = (do
      sameLevelInterrupt (g.extractLsb' 16 16) a d (g.extractLsb' 48 16 ++ g.extractLsb' 0 16) true
        ({ s.flags with rf := rf } : Flags).image ret code
      modify fun u : State => { u with flags := u.flags.gated g }
      pure false) v := by
  obtain ⟨x, u, hr, rfl, hd⟩ := h.read
  obtain ⟨isGate, wide, interruptGate, notTask⟩ := h.wide
  obtain ⟨notInner, hle⟩ := h.notInner
  have hnull : selNull (gateSelector (BitVec.ofNat 64 x)) = false := by
    rw [selNull_eq]
    exact decide_eq_false (Nat.not_lt.2 h.notNull)
  have isCode : descIsCode d = true := by
    rw [descIsCode, h.isCode.1, h.isCode.2]
    rfl
  have find : findDesc (gateSelector (BitVec.ofNat 64 x)) .gp u = .ok (a, d) v := hd
  have gatePresent : descP (BitVec.ofNat 64 x) = true := h.gatePresent
  rw [gateInterrupt, M.get_bind_apply]
  dsimp only
  rw [require_pass (decide_eq_true h.inTable), M.bind_ok (readDesc_ok hr), require_pass ((isGate_iff _).1 isGate),
    gateVisible_eq, require_pass (decide_eq_true hg), require_pass gatePresent, if_neg notTask,
    require_pass (by rw [hnull]; rfl), M.bind_ok find]
  dsimp only
  rw [require_pass isCode, require_pass (decide_eq_true hle), require_pass h.present, hv, wide, interruptGate, notInner]
  simp only [Flags.inHandler_eq_gated]
  rfl

/-- The entry of a gate at the same level carried out. -/
theorem sameLevelInterrupt_ok {w v' : State} {sel : Word} {off image : Dword} {frame : List (List Dword)}
    {ps : List Dword} {k : Nat} (c : v.closed = true) (hle : off ≤ descLimit d)
    (hl : locatePushes 4 (3 + code.toList.length) 1 { v with free := v.free + 1 + code.toList.length } = .ok frame v')
    (ha : Accessed a d v' ps k w) : ∃ hc he, hc < 65536 ∧ he < 65536 ∧
      sameLevelInterrupt sel a d off true image ret code v = .ok () { w with
        mem := (w.mem.writeAt ps k).writeAll (frame.zip ([image.toNat, hc * 65536 + v.segs.cs.sel.toNat, ret.toNat] ++
          code.toList.map fun c => he * 65536 + c.toNat)), prefetch := []
        regs := v.moved (-(BitVec.ofNat 32 (4 * frame.length)))
        segs := { v.segs with cs := v.committed sel d }, eip := off } := by
  obtain ⟨hc, -, hclt, cs⟩ := selectorSlot_apply true v.segs.cs.sel v
  obtain ⟨he, helt, slot⟩ := codeSlot_apply code { v with free := v.free + 1 }
  refine ⟨hc, he, hclt, helt, ?_⟩
  have len : ([image.toNat, hc * 65536 + v.segs.cs.sel.toNat, ret.toNat] ++
      code.toList.map fun c => he * 65536 + c.toNat).length = 3 + code.toList.length := by
    rw [List.length_append, List.length_map]
    rfl
  have hw := (Touched.of_locatePushes hl).trans ha.touched
  obtain ⟨q, mark⟩ := setAccessed_ok ((Touched.of_locatePushes hl).stays (by exact c)) ha
  have cw := hw.stays (by exact c)
  obtain ⟨q', store⟩ := memWriteAll_closed (s := { w with
    mem := w.mem.writeAt ps k, prefetch := q, segs := { w.segs with cs := v.committed sel d }, cpl := v.cpl })
    (State.closed_iff.2 ⟨Memory.wf_writeAt _ _ (w.closed_wf cw), w.closed_masters cw, w.closed_map cw⟩) frame
    ([image.toNat, hc * 65536 + v.segs.cs.sel.toNat, ret.toNat] ++ code.toList.map fun c => he * 65536 + c.toNat)
  have room := requireRoom_pass (roomFault_of_locatePushes hl)
  have commit : commitCS sel d v.cpl { w with mem := w.mem.writeAt ps k, prefetch := q } = .ok () { w with
      mem := w.mem.writeAt ps k, prefetch := q, segs := { w.segs with cs := v.committed sel d }, cpl := v.cpl } := rfl
  rw [Bool.toNat_true] at cs
  rw [sameLevelInterrupt, M.get_bind_apply, M.bind_ok cs, M.bind_ok slot]
  simp only [if_true, len]
  rw [M.bind_ok room, require_pass (decide_eq_true hle), M.bind_ok hl, M.bind_ok mark, M.bind_ok commit,
    M.bind_ok store, M.bind_ok (moveStackPtr_moved _ _), ← length_locatePushes hl]
  obtain ⟨m, q'', l, k', b, e, rfl⟩ := hw.form (by exact c)
  rfl

theorem GateFound.touched (h : GateFound s n g a d v) : Touched s v := by
  obtain ⟨x, u, hr, -, hd⟩ := h.read
  exact ((Touches.sysRead _ _ _).1 _ _ hr).trans (Touched.of_findDesc hd)

/-- The state with CS as an entry through the gate `g` to the segment `d` leaves it. -/
def State.inGateCS (s : State) (g d : Descriptor) : State :=
  { s with segs := { s.segs with cs := s.committed (g.extractLsb' 16 16) d } }

/-- GateInterrupt through a gate to the same level, and the end of the step in which it is executed. -/
theorem gateInterrupt_enters {w v' : State} {frame : List (List Dword)} {ps : List Dword} {k : Nat}
    (c : s.closed = true) (h : GateFound s n g a d v) (hvm : s.flags.vm = false)
    (hg : software = true → s.cpl.toNat ≤ (descDpl g).toNat)
    (hl : locatePushes 4 (3 + code.toList.length) 1 { v with free := v.free + 1 + code.toList.length } = .ok frame v')
    (ha : Accessed a d v' ps k w) :
    ∃ y, gateInterrupt n software ret code rf s = .ok false y ∧ y.dr6 = s.dr6 ∧
      ∀ b, GateEntry s g d w.mem ps k frame rf ret code ((s.inGateCS g d).noTrap.finish (y.withHits b) .keepRf) := by
  have hv := h.touched
  obtain ⟨hc, he, hclt, helt, enter⟩ := sameLevelInterrupt_ok (sel := g.extractLsb' 16 16) (ret := ret)
    (image := ({ s.flags with rf := rf } : Flags).image) (hv.stays c) h.inside hl ha
  have hgate := (gateInterrupt_same (ret := ret) (code := code) (rf := rf) h hvm hg).trans
    ((M.bind_ok enter _).trans rfl)
  have hw := (Touched.of_locatePushes hl).trans ha.touched
  have hs := ((hv.trans hw.undraw).over c { s.segs with cs := s.committed (g.extractLsb' 16 16) d } s.cpl s.cr2 s.gdtr
    s.idtr s.ldtr s.tr s.inhibit s.nmiInService s.ioLog).overFlags { s.flags with tf := false }
  have hform := hw.form (hv.stays c)
  have hform' := hv.form c
  obtain ⟨m, q, l, j, b, e, rfl⟩ := hform
  obtain ⟨m', q', l', j', b', e', rfl⟩ := hform'
  refine ⟨_, hgate, rfl, fun b => ⟨?_, hc, he, hclt, helt, State.finish_mem ..⟩⟩
  refine After.intro (by exact c) hs .keepRf (by decide) rfl fun y hy => ?_
  rw [List.mem_append, not_or] at hy
  exact (Memory.read_writeAll_zip _ _ hy.2).trans (Memory.read_writeAt_other _ _ hy.1)

end

theorem GateEntry.anyFree {s t : State} {g d : Descriptor} {m : Memory} {ps : List Dword} {k : Nat}
    {frame : List (List Dword)} {rf : Bool} {ret : Dword} {code : Option Word} {j : Nat}
    (h : GateEntry { s with free := j } g d m ps k frame rf ret code t) : GateEntry s g d m ps k frame rf ret code t :=
  ⟨{ h.after with }, h.pushed⟩

theorem deliverOnce_prot {s : State} {n : Nat} {software rf : Bool} {ret : Dword} {code : Option Word}
    (h : s.cr0.pe = true) : deliverOnce n software ret code rf s = gateInterrupt n software ret code rf s := by
  rw [deliverOnce, M.get_bind_apply, if_pos h]

theorem State.pe_of_protMode {s : State} (h : s.protMode = true) : s.cr0.pe = true := by
  rw [State.protMode, Bool.and_eq_true] at h
  exact h.1

theorem State.vm_of_protMode {s : State} (h : s.protMode = true) : s.flags.vm = false := by
  rw [State.protMode, Bool.and_eq_true, Bool.not_eq_true'] at h
  exact h.2

/-! Exceptions. -/

/-- The error code drawn: the open bits are a page fault's only. -/
theorem errorCode_apply (e : Exn) (s : State) :
    ∃ o, errorCode e s = .ok (e.code o) { s with free := s.free + e.isPage.toNat } := by
  cases e
  case pf lin p w u => exact ⟨(Config.freeValue s.free).setWidth 13, rfl⟩
  all_goals exact ⟨0, rfl⟩

theorem Exn.length_code (e : Exn) (o : BitVec 13) : (e.code o).toList.length = (e.code 0).toList.length := by
  cases e <;> rfl

/-- Settles O39. -/
theorem protectedDeliverySavesAndJumps : Obligations.ProtectedDeliverySavesAndJumps := by
  intro s u v v' w e g a d frame ps k hp c cu x hfound hl ha
  have cx : x.closed = true := closed_afterFault c cu e
  have mode : x.cr0 = s.cr0 ∧ x.flags = s.flags := by
    constructor <;> simp [x, State.idle]
  have hpe : x.cr0.pe = true := by rw [mode.1]; exact s.pe_of_protMode hp
  have hvm : x.flags.vm = false := by rw [mode.2]; exact s.vm_of_protMode hp
  obtain ⟨o, hcode⟩ := errorCode_apply e x
  rw [← e.length_code o] at hl
  obtain ⟨y, hy, hdr6, entry⟩ := gateInterrupt_enters (s := { x with free := x.free + e.isPage.toNat })
    (software := false) (rf := true) (ret := s.eip) (by exact cx) hfound hvm (fun h => by cases h) hl ha
  have once : exnOnce e s.eip x = .ok false y :=
    (M.bind_ok hcode _).trans ((deliverOnce_prot (by exact hpe)).trans hy)
  have entry : GateEntry x g d w.mem ps k frame true s.eip (e.code o) y.idle := by
    rw [State.idle_eq_finish (s := ({ x with free := x.free + e.isPage.toNat } : State).inGateCS g d |>.noTrap) rfl]
    exact (entry 0).anyFree
  refine ⟨y.idle, o, delivered_ok (deliverExn_ok once), entry, hdr6, ?_⟩
  rintro lin p wr us rfl
  exact entry.after.cr2

/-! Software interrupts. -/

theorem interruptForm_runs {s : State} {i : Instr} {n : Nat} (h : InterruptForm s i n) (hv : s.flags.vm = false) :
    ∃ body, exec i s = runInstr body s ∧ body s = softwareInterrupt n s := by
  cases h with
  | int3 => exact ⟨softwareInterrupt 3, rfl, rfl⟩
  | int n => exact ⟨interruptN n, rfl, M.bind_ok (requireIopl86_ok (.inl hv)) _⟩
  | into h =>
    refine ⟨interruptOverflow, rfl, ?_⟩
    rw [interruptOverflow, M.get_bind_apply, if_pos h]

theorem softwareInterrupt_apply (n : Nat) (s : State) : softwareInterrupt n s =
    (deliverOnce n true s.nextEip none s.flags.rf >>= fun _ => pure Done.silent) s := by
  rw [softwareInterrupt, M.get_bind_apply]

section
variable {s t : State} {i : Instr} {n : Nat} (h : InterruptForm s i n) (hv : s.flags.vm = false)
include h hv

theorem interrupt_ok {b : Bool} (hd : deliverOnce n true s.nextEip none s.flags.rf s = .ok b t) :
    exec i s = .next (s.finish t .silent) := by
  obtain ⟨body, he, hb⟩ := interruptForm_runs h hv
  exact he.trans (runInstr_ok (hb.trans ((softwareInterrupt_apply n s).trans (M.bind_ok hd _))))

theorem interrupt_raises {e : Exn} (hd : deliverOnce n true s.nextEip none s.flags.rf s = .error (.exn e) t) :
    exec i s = takeExn s t e := by
  obtain ⟨body, he, hb⟩ := interruptForm_runs h hv
  exact he.trans (runInstr_exn (hb.trans ((softwareInterrupt_apply n s).trans (M.bind_error hd _))))

end

/-- INT in Real Mode. -/
theorem interrupt_real {s : State} {i : Instr} {n : Nat} (hr : s.inReal) (c : s.closed = true)
    (h : InterruptForm s i n) :
    (s.canEnter n → ∃ t, exec i s = .next t ∧ RealEntry s n s.nextEip t) ∧
    (s.idtr.limit.toNat < 4 * n + 3 → n ≠ 8 → n ≠ 13 → exec i s = takeExn s s .df) ∧
    (s.idtr.limit.toNat < 4 * n + 3 → n = 8 ∨ n = 13 → ∃ t, exec i s = .next t ∧ t.run = .shutdown) ∧
    (4 * n + 3 ≤ s.idtr.limit.toNat → ∀ e, s.roomFault 2 3 = some e → exec i s = takeExn s s e) := by
  have ⟨hpe, _, hvm⟩ := hr
  refine ⟨fun hc => ?_, fun hs h8 h13 => ?_, fun hs hn => ?_, fun ht e he => ?_⟩
  · obtain ⟨b, e⟩ := realInterrupt_enters hr c hc
    refine ⟨_, interrupt_ok h hvm (deliverOnce_real e hpe), ?_⟩
    rw [State.finish_silent]
    exact realEntry_finish c b
  · exact interrupt_raises h hvm (deliverOnce_real (realInterrupt_short hs h8 h13) hpe)
  · exact ⟨_, interrupt_ok h hvm (deliverOnce_real (realInterrupt_last hs hn) hpe), State.finish_run ..⟩
  · obtain ⟨b, e'⟩ := realInterrupt_room hr ht he
    exact (interrupt_raises h hvm (deliverOnce_real e' hpe)).trans rfl

/-- INT through a gate. -/
theorem interrupt_gate {s : State} {i : Instr} {n : Nat} (hp : s.protMode = true) (c : s.closed = true)
    (h : InterruptForm s i n) :
    (s.idtr.limit.toNat < 8 * n + 7 → exec i s = takeExn s s (.gp (gateCode n))) ∧
    (8 * n + 7 ≤ s.idtr.limit.toNat → ∀ x u, sysRead (s.idtr.base + BitVec.ofNat 32 (8 * n)) 8 s = .ok x u →
      let g := BitVec.ofNat 64 x
      (¬ IsGate g → exec i s = takeExn s u (.gp (gateCode n))) ∧
      (IsGate g → (descDpl g).toNat < s.cpl.toNat → exec i s = takeExn s u (.gp (gateCode n))) ∧
      (IsGate g → s.cpl.toNat ≤ (descDpl g).toNat → descP g = false → exec i s = takeExn s u (.np (gateCode n)))) ∧
    (∀ g a d v frame v' ps x w, GateFound s n g a d v → s.cpl.toNat ≤ (descDpl g).toNat →
      locatePushes 4 3 1 { v with free := v.free + 1 } = .ok frame v' → Accessed a d v' ps x w →
      ∃ t, exec i s = .next t ∧ GateEntry s g d w.mem ps x frame s.flags.rf s.nextEip none t) := by
  have hvm := s.vm_of_protMode hp
  have raises : ∀ {u : State} {e : Exn}, gateInterrupt n true s.nextEip none s.flags.rf s = .error (.exn e) u →
      exec i s = takeExn s u e := fun e => interrupt_raises h hvm ((deliverOnce_prot (s.pe_of_protMode hp)).trans e)
  refine ⟨fun hs => raises (gateInterrupt_short hs), fun ht x u hx => ⟨fun hno => ?_, fun hg hlt => ?_,
    fun hg hle hpr => ?_⟩, fun g a d v frame v' ps x w hfound hle hl ha => ?_⟩
  · exact raises (gateInterrupt_wrong ht hx hno)
  · exact raises (gateInterrupt_hidden ht hx hg hlt)
  · exact raises (gateInterrupt_absent ht hx hg (fun _ => hle) hpr)
  · obtain ⟨y, hy, -, entry⟩ := gateInterrupt_enters (code := none) (rf := s.flags.rf) (ret := s.nextEip) c hfound hvm
      (fun _ => hle) hl ha
    refine ⟨_, interrupt_ok h hvm ((deliverOnce_prot (s.pe_of_protMode hp)).trans hy), ?_⟩
    rw [State.finish_silent]
    exact entry y.dec.hits

/-- Settles O37. -/
theorem softwareInterruptsAreDelivered : Obligations.SoftwareInterruptsAreDelivered := by
  intro s c
  refine ⟨fun hr i n h => interrupt_real hr c h, fun hp i n h => interrupt_gate hp c h, fun hv hi n => ?_,
    fun hof => ?_⟩
  · exact runInstr_exn (M.bind_error (requireIopl86_raises hv hi) _)
  · have hb : interruptOverflow s = .ok .plain { s with eip := s.nextEip } := by
      rw [interruptOverflow, M.get_bind_apply, if_neg (by rw [hof]; decide)]
      rfl
    obtain ⟨t, ht, ha, -⟩ : Leaves s .into s s.regs s.flags.settled s.nextEip [] 0 :=
      Leaves.intro_none rfl hb (by decide) rfl c (.refl s) rfl rfl rfl rfl
    exact ⟨t, ht, ha⟩

end Sys2Proof.Machine

/-! The task switch: obligation O59. -/

namespace Sys2Proof.Machine

variable {α β : Type}

/-! What can happen before the commit point. -/

/-- An action that belongs to no new task and leaves CR0 and DR7 alone. -/
def Plain (x : M α) : Prop := ∀ s, (∀ a u, x s = .ok a u → u.cr0 = s.cr0 ∧ u.dr7 = s.dr7) ∧
  ∀ e u, x s ≠ .error (.exnNew e) u

theorem Plain.pure (a : α) : Plain (pure a : M α) :=
  fun s => ⟨fun _ _ h => by cases h; exact ⟨rfl, rfl⟩, fun _ _ h => by cases h⟩

theorem Plain.get : Plain (get : M State) :=
  fun s => ⟨fun _ _ h => by cases h; exact ⟨rfl, rfl⟩, fun _ _ h => by cases h⟩

theorem Plain.bind {x : M α} {f : α → M β} (hx : Plain x) (hf : ∀ a, Plain (f a)) : Plain (x >>= f) := by
  intro s
  obtain ⟨hok, hnew⟩ := hx s
  refine ⟨fun b u h => ?_, fun e u h => ?_⟩
  · obtain ⟨a, v, ha, hb⟩ := M.bind_eq_ok h
    obtain ⟨h0, h7⟩ := (hf a v).1 b u hb
    obtain ⟨k0, k7⟩ := hok a v ha
    exact ⟨h0.trans k0, h7.trans k7⟩
  · rcases M.bind_eq_error h with h | ⟨a, v, -, h⟩
    · exact hnew e u h
    · exact (hf a v).2 e u h

theorem Plain.ite {c : Prop} [Decidable c] {x y : M α} (hx : Plain x) (hy : Plain y) : Plain (if c then x else y) := by
  split
  · exact hx
  · exact hy

theorem Plain.raise (e : Exn) : Plain (raise e : M α) := fun s => ⟨fun _ _ h => (nomatch h), fun _ _ h => (nomatch h)⟩

theorem Plain.require (b : Bool) (e : Exn) : Plain (require b e) := .ite (.pure ()) (.raise e)

theorem Plain.modify {f : State → State} (h : ∀ s, (f s).cr0 = s.cr0 ∧ (f s).dr7 = s.dr7) :
    Plain (modify f : M Unit) := fun s => ⟨fun _ _ e => by cases e; exact h s, fun _ _ e => by cases e⟩

theorem Plain.draw (n : Nat) : Plain (draw n) :=
  fun s => ⟨fun _ _ h => by cases h; exact ⟨rfl, rfl⟩, fun _ _ h => by cases h⟩

theorem Plain.of_bused {x : M α} (h : ∀ s, ∃ a u, x s = .ok a u ∧ Bused s u) : Plain x := by
  intro s
  obtain ⟨a, u, e, hu⟩ := h s
  refine ⟨fun b v hb => ?_, fun r v hr => ?_⟩
  · cases e.symm.trans hb
    rw [hu.rest]
    exact ⟨rfl, rfl⟩
  · cases e.symm.trans hr

theorem Plain.memRead (ps : List Dword) : Plain (memRead ps) := .of_bused (memRead_bused ps)

theorem Plain.memWrite (ps : List Dword) (v : Nat) : Plain (memWrite ps v) :=
  .of_bused fun s => ⟨(), memWrite_bused ps v s⟩

theorem Plain.lockedModify (ps : List Dword) (f : Nat → Nat) : Plain (lockedModify ps f) :=
  .of_bused fun s => ⟨(), lockedModify_bused ps f s⟩

theorem Plain.tlbInsert (e : TlbEntry) : Plain (tlbInsert e) := by
  refine .bind .get fun s => ?_
  cases tlbWay s.tlb e.tag with
  | none => exact .bind (.draw 2) fun _ => .modify fun _ => ⟨rfl, rfl⟩
  | some way => exact .modify fun _ => ⟨rfl, rfl⟩

theorem Plain.pageWalk (lin : Dword) (write user : Bool) : Plain (pageWalk lin write user) :=
  .bind .get fun _ => .bind (.bind (.memRead _) fun _ => .pure _) fun _ => .bind (.require _ _) fun _ =>
    .bind (.bind (.memRead _) fun _ => .pure _) fun _ => .bind (.require _ _) fun _ => .bind (.require _ _) fun _ =>
    .bind (.ite (.lockedModify _ _) (.pure _)) fun _ => .bind (.ite (.lockedModify _ _) (.pure _)) fun _ =>
    .bind (.tlbInsert _) fun _ => .pure _

theorem Plain.translate (lin : Dword) (write sys : Bool) : Plain (translate lin write sys) := by
  refine .bind .get fun s => .ite (.pure _) ?_
  rcases tlbMatches s.tlb (pageOf lin) with _ | ⟨e, _ | ⟨e', es⟩⟩
  · exact .pageWalk _ _ _
  · exact .ite (.bind (.require _ _) fun _ => .pure _) (.pageWalk _ _ _)
  · exact fun s => ⟨fun _ _ h => (nomatch h), fun _ _ h => (nomatch h)⟩

theorem Plain.linLocate (lin : Dword) (n : Nat) (write sys : Bool) : Plain (linLocate lin n write sys) :=
  .bind .get fun _ => .ite (.bind (.translate _ _ _) fun _ => .pure _)
    (.bind (.translate _ _ _) fun _ => .bind (.translate _ _ _) fun _ => .pure _)

theorem Plain.locateFields (base : Dword) (write : Bool) (fs : List (Nat × Nat)) :
    Plain (locateFields base write fs) := by
  induction fs with
  | nil => exact .pure _
  | cons f fs ih => exact .bind (.linLocate _ _ _ _) fun _ => ih.bind fun _ => .pure _

theorem Plain.memReadAll (ls : List (List Dword)) : Plain (memReadAll ls) := by
  induction ls with
  | nil => exact .pure _
  | cons p ps ih => exact .bind (.memRead p) fun _ => ih.bind fun _ => .pure _

theorem Plain.memWriteAll (ls : List (List Dword)) (vs : List Nat) : Plain (memWriteAll ls vs) := by
  induction ls generalizing vs with
  | nil => exact .pure ()
  | cons p ps ih =>
    cases vs with
    | nil => exact .pure ()
    | cons v vs => exact .bind (.memWrite p v) fun _ => ih vs

theorem Plain.selectorSlot (wide : Bool) (sel : Word) : Plain (selectorSlot wide sel) :=
  .ite (.bind (.draw 16) fun _ => .pure _) (.pure _)

theorem Plain.selectorSlots (ws : List Word) : Plain (selectorSlots ws) := by
  induction ws with
  | nil => exact .pure _
  | cons w ws ih => exact .bind (.selectorSlot _ _) fun _ => ih.bind fun _ => .pure _

theorem Plain.savedValues (is386 : Bool) (s : State) (fl : Flags) : Plain (savedValues is386 s fl) :=
  .ite (.bind (.selectorSlots _) fun _ => .pure _) (.pure _)

/-! The phases of a task switch. -/

/-- Where a task switch reads and writes. -/
structure SwitchBytes where
  saved : List (List Dword)
  loaded : List (List Dword)
  link : List Dword
  oldBusy : List Dword
  newBusy : List Dword

/-- Whether a descriptor is of an Intel386 DX TSS. -/
def tss386 (d : Descriptor) : Bool := descType d == 9 || descType d == 11

/-- Every byte either phase touches, located first. -/
def locateSwitch (s : State) (sel : Word) (d : Descriptor) (kind : SwitchKind) : M SwitchBytes := do
  let saved ← locateFields s.tr.base true (savedFields s.tr.is386)
  let loaded ← locateFields (descBase d) false (loadedFields (tss386 d))
  let link ← (if kind.nests then linLocate (descBase d) 2 true true else pure [])
  let oldBusy ← (if kind.nests then pure [] else linLocate (typeByteAddr s s.tr.sel) 1 true true)
  let newBusy ← (if kind = .iret then pure [] else linLocate (typeByteAddr s sel) 1 true true)
  pure ⟨saved, loaded, link, oldBusy, newBusy⟩

/-- What is stored: the outgoing task, the busy bits and the back link. -/
def storeSwitch (s : State) (kind : SwitchKind) (b : SwitchBytes) (values : List Nat) : M Unit := do
  memWriteAll b.saved values
  let _ ← (if kind.nests then memWrite b.link s.tr.sel.toNat else changeTypeByte b.oldBusy 2 0)
  if kind = .iret then pure () else changeTypeByte b.newBusy 0 2

/-- The commit point. -/
def commitSwitch (sel : Word) (d : Descriptor) : M Unit := do
  modify State.noteHits
  modify fun u =>
    { u with
      dec := { u.dec with hits := 0 }
      tr := { sel := sel, base := descBase d, limit := descLimit d, is386 := tss386 d }
      cr0 := { u.cr0 with ts := true }
      dr7 := u.dr7 &&& ~~~(0x155 : Dword) }

/-- The EFLAGS that a switch saves. -/
def SwitchKind.flags (kind : SwitchKind) (f : Flags) : Flags := if kind = .iret then { f with nt := false } else f

/-- The values of `loadedFields` after CR3, which only an Intel386 DX TSS has. -/
def loadedValues (is386 : Bool) (read : List Nat) : List Nat := if is386 then read.drop 1 else read

theorem taskSwitch_eq (sel : Word) (d : Descriptor) (kind : SwitchKind) (s : State) :
    taskSwitch sel d kind s = (do
      require (decide ((if tss386 d then 0x64 else 0x2B) < (descLimit d).toNat))
        (.ts (selCode sel))
      let b ← locateSwitch s sel d kind
      let values ← savedValues s.tr.is386 s (kind.flags s.flags)
      storeSwitch s kind b values
      let read ← memReadAll b.loaded
      commitSwitch sel d
      let vs := loadedValues (tss386 d) read
      taskLoad (tss386 d) kind.nests (nthValue read 0) vs
      inNewTask (taskValidate ((tss386 d) &&
        (BitVec.ofNat 16 (nthValue vs 17)).getLsbD 0)) : M Unit) s := by
  rw [taskSwitch, M.get_bind_apply]
  cases kind <;> simp only [locateSwitch, storeSwitch, commitSwitch, SwitchKind.nests, SwitchKind.flags, loadedValues,
    tss386, bind_assoc, pure_bind, reduceCtorEq, Bool.false_eq_true, if_true, if_false] <;> rfl

/-! The way through the phases. -/

/-- The switch was completed, or it was committed and an exception raised in the new task. -/
def Survives (x : M Unit) (s t : State) : Prop := x s = .ok () t ∨ ∃ e, x s = .error (.exnNew e) t

/-- What precedes in a switch that was committed has completed. -/
theorem Plain.survives {x : M α} {f : α → M Unit} {s t : State} (hx : Plain x) (h : Survives (x >>= f) s t) :
    ∃ a u, x s = .ok a u ∧ (u.cr0 = s.cr0 ∧ u.dr7 = s.dr7) ∧ Survives (f a) u t := by
  obtain ⟨hok, hnew⟩ := hx s
  rcases h with h | ⟨e, h⟩
  · obtain ⟨a, u, ha, hb⟩ := M.bind_eq_ok h
    exact ⟨a, u, ha, hok a u ha, .inl hb⟩
  · rcases M.bind_eq_error h with h | ⟨a, u, ha, hb⟩
    · exact absurd h (hnew e t)
    · exact ⟨a, u, ha, hok a u ha, .inr ⟨e, hb⟩⟩

theorem survives_bind {x : M α} {f : α → M Unit} {s t u : State} {a : α} (hx : x s = .ok a u)
    (h : Survives (x >>= f) s t) : Survives (f a) u t := by
  rwa [Survives, M.bind_ok hx] at h

theorem Plain.locateSwitch (s : State) (sel : Word) (d : Descriptor) (kind : SwitchKind) :
    Plain (locateSwitch s sel d kind) :=
  .bind (.locateFields _ _ _) fun _ => .bind (.locateFields _ _ _) fun _ => .bind (.ite (.linLocate _ _ _ _) (.pure _))
    fun _ => .bind (.ite (.pure _) (.linLocate _ _ _ _)) fun _ => .bind (.ite (.pure _) (.linLocate _ _ _ _))
    fun _ => .pure _

theorem Plain.storeSwitch (s : State) (kind : SwitchKind) (b : SwitchBytes) (values : List Nat) :
    Plain (storeSwitch s kind b values) :=
  .bind (.memWriteAll _ _) fun _ => .bind (.ite (.memWrite _ _) (.lockedModify _ _)) fun _ =>
    .ite (.pure _) (.lockedModify _ _)

/-- The state at the commit point. -/
def State.committedTo (u : State) (sel : Word) (d : Descriptor) : State :=
  let v := u.noteHits
  { v with
    dec := { v.dec with hits := 0 }
    tr := { sel := sel, base := descBase d, limit := descLimit d, is386 := tss386 d }
    cr0 := { v.cr0 with ts := true }
    dr7 := v.dr7 &&& ~~~(0x155 : Dword) }

theorem commitSwitch_apply (sel : Word) (d : Descriptor) (u : State) :
    commitSwitch sel d u = .ok () (u.committedTo sel d) := rfl

/-- The incoming task as phase 3 loads it, with the general registers `g`. -/
def State.loadedTask (s : State) (is386 nests : Bool) (pageDir : Nat) (vs : List Nat) (g : Regs) : State :=
  let sel := fun k => BitVec.ofNat 16 (nthValue vs k)
  let fl := Flags.ofImage (BitVec.ofNat 32 (nthValue vs 1))
  let cr3 := (BitVec.ofNat 32 pageDir).extractLsb' 12 20
  { s with
    cr3 := if is386 then cr3 else s.cr3
    tlb := if is386 && decide (cr3 ≠ s.cr3) then List.replicate 32 none else s.tlb
    eip := BitVec.ofNat 32 (nthValue vs 0)
    flags := { fl with nt := fl.nt || nests }
    cpl := if fl.vm then 3 else s.cpl
    regs := g
    segs := { es := s.segs.es.nullWith (sel 10), cs := s.segs.cs.nullWith (sel 11),
              ss := s.segs.ss.nullWith (sel 12), ds := s.segs.ds.nullWith (sel 13),
              fs := s.segs.fs.nullWith (if is386 then sel 14 else 0),
              gs := s.segs.gs.nullWith (if is386 then sel 15 else 0) }
    ldtr := { s.ldtr with sel := if is386 then sel 16 else sel 14, valid := false }
    prefetch := [] }

/-- A general register loaded from the slot with `v`. -/
def LoadedReg (is386 : Bool) (v : Nat) (r : Dword) : Prop :=
  if is386 then r = BitVec.ofNat 32 v else r.extractLsb' 0 16 = BitVec.ofNat 16 v

theorem loadedReg_apply (is386 : Bool) (v : Nat) (s : State) :
    ∃ r k, loadedReg is386 v s = .ok r { s with free := k } ∧ LoadedReg is386 v r := by
  cases is386 with
  | true => exact ⟨_, s.free, rfl, rfl⟩
  | false =>
    refine ⟨_, s.free + 1, rfl, ?_⟩
    exact BitVec.extractLsb'_append_eq_right

/-- The eight general registers of the incoming task. -/
def LoadedRegs (is386 : Bool) (vs : List Nat) (g : Regs) : Prop :=
  ∀ x ∈ [(Reg.eax, 2), (.ecx, 3), (.edx, 4), (.ebx, 5), (.esp, 6), (.ebp, 7), (.esi, 8), (.edi, 9)],
    LoadedReg is386 (nthValue vs x.2) (g.get x.1)

theorem taskLoad_apply (is386 nests : Bool) (pageDir : Nat) (vs : List Nat) (s : State) :
    ∃ g k, LoadedRegs is386 vs g ∧
      taskLoad is386 nests pageDir vs s = .ok () { s.loadedTask is386 nests pageDir vs g with free := k } := by
  obtain ⟨eax, k0, e0, h0⟩ := loadedReg_apply is386 (nthValue vs 2) s
  obtain ⟨ecx, k1, e1, h1⟩ := loadedReg_apply is386 (nthValue vs 3) { s with free := k0 }
  obtain ⟨edx, k2, e2, h2⟩ := loadedReg_apply is386 (nthValue vs 4) { s with free := k1 }
  obtain ⟨ebx, k3, e3, h3⟩ := loadedReg_apply is386 (nthValue vs 5) { s with free := k2 }
  obtain ⟨esp, k4, e4, h4⟩ := loadedReg_apply is386 (nthValue vs 6) { s with free := k3 }
  obtain ⟨ebp, k5, e5, h5⟩ := loadedReg_apply is386 (nthValue vs 7) { s with free := k4 }
  obtain ⟨esi, k6, e6, h6⟩ := loadedReg_apply is386 (nthValue vs 8) { s with free := k5 }
  obtain ⟨edi, k7, e7, h7⟩ := loadedReg_apply is386 (nthValue vs 9) { s with free := k6 }
  refine ⟨{ eax, ecx, edx, ebx, esp, ebp, esi, edi }, k7, ?_, ?_⟩
  · rw [LoadedRegs]
    simp only [List.forall_mem_cons]
    exact ⟨h0, h1, h2, h3, h4, h5, h6, h7, fun _ h => nomatch h⟩
  · rw [taskLoad, M.bind_ok e0, M.bind_ok e1, M.bind_ok e2, M.bind_ok e3, M.bind_ok e4, M.bind_ok e5, M.bind_ok e6,
      M.bind_ok e7]
    rfl

/-! One byte. -/

theorem Memory.readAt_one (m : Memory) (p : Dword) : BitVec.ofNat 8 (m.readAt [p]) = m.read p.toNat := by
  rw [readAt, readAt, Nat.mul_zero, Nat.add_zero, BitVec.ofNat_toNat, BitVec.setWidth_eq]

theorem Memory.writeAt_one (m : Memory) (p : Dword) (v : Byte) : m.writeAt [p] v.toNat = m.write p.toNat v := by
  rw [writeAt, writeAt, BitVec.ofNat_toNat, BitVec.setWidth_eq]

/-! Phase 4 changes the cached segments only. -/

/-- `x` is `y` but for what phase 4 of a switch may change after LDTR: the caches of the segment registers, CPL outside
Virtual 8086 Mode, what accesses leave, and the A bits in the bytes that `P` names. -/
structure Revised (P : Dword → Prop) (y x : State) : Prop where
  task : x.tr = y.tr ∧ x.cr0 = y.cr0 ∧ x.dr7 = y.dr7 ∧ x.cr3 = y.cr3
  point : x.eip = y.eip ∧ x.flags = y.flags ∧ x.regs = y.regs
  tables : x.gdtr = y.gdtr ∧ x.ldtr = y.ldtr
  sels : ∀ sr, (x.segs.get sr).sel = (y.segs.get sr).sel
  cpl : y.flags.vm = true → x.cpl = y.cpl
  closed : y.closed = true → x.closed = true
  mem : y.closed = true → y.cr0.pg = false → ∀ b : Dword, x.mem.read b.toNat = y.mem.read b.toNat ∨
    P b ∧ x.mem.read b.toNat = y.mem.read b.toNat ||| 1

section
variable {P : Dword → Prop} {y x u : State}

theorem Revised.refl (P : Dword → Prop) (y : State) : Revised P y y :=
  ⟨⟨rfl, rfl, rfl, rfl⟩, ⟨rfl, rfl, rfl⟩, ⟨rfl, rfl⟩, fun _ => rfl, fun _ => rfl, id, fun _ _ _ => .inl rfl⟩

theorem Revised.touched (h : Revised P y x) (hu : Touched x u) : Revised P y u where
  task := by rw [hu.rest]; exact h.task
  point := by rw [hu.rest]; exact h.point
  tables := by rw [hu.rest]; exact h.tables
  sels := by rw [hu.rest]; exact h.sels
  cpl := by rw [hu.rest]; exact h.cpl
  closed c := hu.stays (h.closed c)
  mem c hp := by
    have hpg : x.cr0.pg = false := by rw [h.task.2.1]; exact hp
    rw [hu.direct (h.closed c) hpg]
    exact h.mem c hp

/-- A state that differs in nothing that matters but the caches. -/
theorem Revised.segs (h : Revised P y x) {g : Segs} (hg : ∀ sr, (g.get sr).sel = (y.segs.get sr).sel) :
    Revised P y { x with segs := g } :=
  ⟨h.task, h.point, h.tables, hg, h.cpl, h.closed, h.mem⟩

/-- An A bit set: with paging off, in a byte that `P` names. -/
theorem Revised.marked {ps : List Dword} (h : Revised P y x)
    (hps : y.closed = true → y.cr0.pg = false → ∃ a, ps = [a] ∧ P a) {t : State}
    (hm : lockedModify ps (fun v => (BitVec.ofNat 8 v ||| 1).toNat) x = .ok () t) : Revised P y t := by
  obtain ⟨v, e, hb⟩ := lockedModify_bused ps (fun v => (BitVec.ofNat 8 v ||| 1).toNat) x
  cases e.symm.trans hm
  have stored : y.closed = true → t = x.putBytes ps (BitVec.ofNat 8 (x.mem.readAt ps) ||| 1).toNat := fun c => by
    cases (lockedModify_closed (h.closed c) ps fun v => (BitVec.ofNat 8 v ||| 1).toNat).symm.trans e
    rfl
  refine ⟨by rw [hb.rest]; exact h.task, by rw [hb.rest]; exact h.point, by rw [hb.rest]; exact h.tables,
    by rw [hb.rest]; exact h.sels, by rw [hb.rest]; exact h.cpl, fun c => ?_, fun c hp b => ?_⟩
  · rw [stored c]
    exact State.closed_putBytes _ _ (h.closed c)
  · obtain ⟨a, rfl, ha⟩ := hps c hp
    rw [stored c, State.putBytes_mem, Memory.readAt_one, Memory.writeAt_one]
    by_cases hab : b = a
    · subst hab
      refine .inr ⟨ha, (Memory.read_write_same _ _ _ (x.closed_wf (h.closed c))).trans ?_⟩
      rcases h.mem c hp b with hx | ⟨-, hx⟩
      · rw [hx]
      · rw [hx, BitVec.or_assoc, BitVec.or_self]
    · rw [Memory.read_write_other _ _ fun hn => hab (BitVec.eq_of_toNat_eq hn)]
      exact h.mem c hp b

end

/-! The actions of phase 4 keep to that. -/

/-- `x` keeps an invariant, where it completes and where it stops. -/
def Holds (I : State → Prop) (x : M α) : Prop := ∀ s, I s → (∀ a u, x s = .ok a u → I u) ∧ ∀ e u, x s = .error e u → I u

section
variable {I : State → Prop}

theorem Holds.pure (a : α) : Holds I (pure a : M α) :=
  fun s hs => ⟨fun _ _ h => by cases h; exact hs, fun _ _ h => nomatch h⟩

/-- An action and what follows it, which may use what is known of its answer. -/
theorem Holds.bind_of {x : M α} {f : α → M β} {Q : α → Prop} (hx : Holds I x)
    (hQ : ∀ s, I s → ∀ a u, x s = .ok a u → Q a) (hf : ∀ a, Q a → Holds I (f a)) : Holds I (x >>= f) := by
  intro s hs
  obtain ⟨hok, herr⟩ := hx s hs
  refine ⟨fun b u h => ?_, fun e u h => ?_⟩
  · obtain ⟨a, v, ha, hb⟩ := M.bind_eq_ok h
    exact (hf a (hQ s hs a v ha) v (hok a v ha)).1 b u hb
  · rcases M.bind_eq_error h with h | ⟨a, v, ha, hb⟩
    · exact herr e u h
    · exact (hf a (hQ s hs a v ha) v (hok a v ha)).2 e u hb

theorem Holds.bind {x : M α} {f : α → M β} (hx : Holds I x) (hf : ∀ a, Holds I (f a)) : Holds I (x >>= f) :=
  .bind_of (Q := fun _ => True) hx (fun _ _ _ _ _ => trivial) fun a _ => hf a

theorem Holds.get_bind {f : State → M β} (hf : ∀ s, I s → Holds I (f s)) : Holds I ((get : M State) >>= f) :=
  fun s hs => hf s hs s hs

theorem Holds.ite {c : Prop} [Decidable c] {x y : M α} (hx : c → Holds I x) (hy : ¬ c → Holds I y) :
    Holds I (if c then x else y) := by
  split
  case isTrue h => exact hx h
  case isFalse h => exact hy h

theorem Holds.modify {f : State → State} (h : ∀ s, I s → I (f s)) : Holds I (modify f : M Unit) :=
  fun s hs => ⟨fun _ _ e => by cases e; exact h s hs, fun _ _ e => nomatch e⟩

end

section
variable {P : Dword → Prop} {y : State}

theorem Touches.holds {x : M α} (hx : Touches x) : Holds (Revised P y) x :=
  fun s hs => ⟨fun a u h => hs.touched ((hx s).1 a u h), fun e u h => hs.touched ((hx s).2 e u h)⟩

theorem Holds.require_bind {b : Bool} {e : Exn} {f : Unit → M β} (hf : ∀ a, Holds (Revised P y) (f a)) :
    Holds (Revised P y) (require b e >>= f) := .bind (Touches.require b e).holds hf

/-- The byte that holds the A bit of a descriptor found. -/
theorem findDesc_typeByte {s u : State} {sel : Word} {f : Word → Exn} {x : Dword × Descriptor}
    (h : findDesc sel f s = .ok x u) : x.1 + 5 = s.typeByte sel := by
  obtain ⟨a, v, ha, h⟩ := M.bind_eq_ok h
  obtain ⟨d, w, -, h⟩ := M.bind_eq_ok h
  cases h
  rw [descAddr, M.get_bind_apply] at ha
  by_cases ht : selTi sel = true
  · rw [if_pos ht] at ha
    obtain ⟨-, v, -, ha⟩ := M.bind_eq_ok ha
    cases ha
    rw [State.typeByte, if_pos (show sel.getLsbD 2 = true from ht)]
    rfl
  · rw [if_neg ht] at ha
    obtain ⟨-, v, -, ha⟩ := M.bind_eq_ok ha
    cases ha
    rw [State.typeByte, if_neg (show ¬ sel.getLsbD 2 = true from ht)]
    rfl

/-- Finding a descriptor, with what is known of the place of its A bit. -/
theorem Holds.findDesc_bind {sel : Word} {f : Word → Exn} {k : Dword × Descriptor → M β}
    (hk : ∀ x, x.1 + 5 = y.typeByte sel → Holds (Revised P y) (k x)) :
    Holds (Revised P y) (findDesc sel f >>= k) :=
  .bind_of (Touches.findDesc sel f).holds (fun s hs x u h => by
    obtain ⟨hg, hl⟩ := hs.tables
    rw [findDesc_typeByte h, State.typeByte, State.typeByte, hg, hl]) hk

theorem Touches.locateAccessed (a : Dword) (d : Descriptor) : Touches (locateAccessed a d) :=
  .ite (.pure _) (.linLocate _ _ _ _)

theorem Holds.setAccessed {a : Dword} (ha : P (a + 5)) (d : Descriptor) : Holds (Revised P y) (setAccessed a d) := by
  refine .bind_of (Q := fun ps => ps = [] ∨ (y.closed = true → y.cr0.pg = false → ∃ b, ps = [b] ∧ P b))
    (Touches.locateAccessed a d).holds (fun s hs ps u h => ?_) fun ps hps => .ite (fun _ => .pure ()) fun hne s hs => ?_
  · rw [Machine.locateAccessed] at h
    split at h
    · cases h
      exact .inl rfl
    · refine .inr fun c hp => ⟨a + 5, ?_, ha⟩
      cases (linLocate_off (by rw [hs.task.2.1]; exact hp) (a + 5) 1 true true).symm.trans h
      rfl
  · have hps := hps.resolve_left fun h => hne (by rw [h]; rfl)
    obtain ⟨u, e, -⟩ := lockedModify_bused ps (fun v => (BitVec.ofNat 8 v ||| 1).toNat) s
    refine ⟨fun _ t h => hs.marked hps h, fun r t h => ?_⟩
    cases e.symm.trans h

/-- A segment register replaced by one with the same selector. -/
theorem Segs.set_sel (g : Segs) (r q : Sreg) {v : SegReg} (h : v.sel = (g.get r).sel) :
    ((g.set r v).get q).sel = (g.get q).sel := by
  cases r with
  | es =>
    cases q with
    | es => exact h
    | cs | ss | ds | fs | gs => rfl
  | cs =>
    cases q with
    | cs => exact h
    | es | ss | ds | fs | gs => rfl
  | ss =>
    cases q with
    | ss => exact h
    | es | cs | ds | fs | gs => rfl
  | ds =>
    cases q with
    | ds => exact h
    | es | cs | ss | fs | gs => rfl
  | fs =>
    cases q with
    | fs => exact h
    | es | cs | ss | ds | gs => rfl
  | gs =>
    cases q with
    | gs => exact h
    | es | cs | ss | ds | fs => rfl

theorem Holds.setSeg {sr : Sreg} {v : SegReg} (h : v.sel = (y.segs.get sr).sel) :
    Holds (Revised P y) (setSeg sr v) :=
  .modify fun _ hs => hs.segs fun r => (Segs.set_sel _ sr r (h.trans (hs.sels sr).symm)).trans (hs.sels r)

/-- Bits 15 to 2 and the RPL are the whole of a selector. -/
theorem selCode_or_selRpl (sel : Word) : selCode sel ||| (selRpl sel).setWidth 16 = sel := by
  ext i hi
  rw [selCode, selRpl, BitVec.getElem_or, BitVec.getElem_and]
  interval_cases i <;> simp

theorem Holds.loadTaskCS {sel : Word} (hv : y.flags.vm = false) (hs : sel = y.segs.cs.sel) (hP : P (y.typeByte sel)) :
    Holds (Revised P y) (loadTaskCS sel) :=
  .require_bind fun _ => .findDesc_bind fun x hx => .require_bind fun _ => .require_bind fun _ => .require_bind fun _ =>
    .bind (.setAccessed (hx ▸ hP) x.2) fun _ => .modify fun z hz =>
      ⟨hz.task, hz.point, hz.tables, fun r => by
        cases r with
        | cs => exact (selCode_or_selRpl sel).trans hs
        | es => exact hz.sels .es
        | ss => exact hz.sels .ss
        | ds => exact hz.sels .ds
        | fs => exact hz.sels .fs
        | gs => exact hz.sels .gs,
       fun h => absurd (hv.symm.trans h) (by decide), hz.closed, hz.mem⟩

theorem Holds.loadTaskSS {sel : Word} (hs : sel = y.segs.ss.sel) (hP : P (y.typeByte sel)) :
    Holds (Revised P y) (loadTaskSS sel) :=
  .get_bind fun _ _ => .require_bind fun _ => .findDesc_bind fun x hx => .require_bind fun _ => .require_bind fun _ =>
    .bind (.setAccessed (hx ▸ hP) x.2) fun _ => .setSeg hs

theorem Holds.loadDataSeg {sr : Sreg} {sel : Word} (f : Word → Exn) (hs : sel = (y.segs.get sr).sel)
    (hP : P (y.typeByte sel)) : Holds (Revised P y) (loadDataSeg sr sel f) :=
  .get_bind fun _ _ => .ite (fun _ => .setSeg hs) fun _ => .findDesc_bind fun x hx => .require_bind fun _ =>
    .require_bind fun _ => .require_bind fun _ => .bind (.setAccessed (hx ▸ hP) x.2) fun _ => .setSeg hs

theorem Holds.loadTask8086 : Holds (Revised P y) loadTask8086 :=
  .modify fun _ hs => hs.segs fun
    | .es => hs.sels .es
    | .cs => hs.sels .cs
    | .ss => hs.sels .ss
    | .ds => hs.sels .ds
    | .fs => hs.sels .fs
    | .gs => hs.sels .gs

end

/-- The bytes that may hold an A bit set by a switch that loaded `y`. -/
def State.markable (y : State) (b : Dword) : Prop :=
  y.flags.vm = false ∧ ∃ x ∈ [Sreg.cs, .ss, .ds, .es, .fs, .gs], b = y.typeByte (y.segs.get x).sel

theorem State.markable_of {y : State} (hv : y.flags.vm = false) {r : Sreg}
    (hr : r ∈ [Sreg.cs, .ss, .ds, .es, .fs, .gs]) : y.markable (y.typeByte (y.segs.get r).sel) := ⟨hv, r, hr, rfl⟩

/-- `x` is `y` with LDTR validated or not. -/
def LdtValidated (y x : State) : Prop := ∃ l, l.sel = y.ldtr.sel ∧ Revised (fun _ => False) { y with ldtr := l } x

/-- `x` is `y` after some of phase 4. -/
def Validated (y x : State) : Prop :=
  ∃ l, l.sel = y.ldtr.sel ∧ Revised ({ y with ldtr := l } : State).markable { y with ldtr := l } x

theorem Holds.loadTaskLdt (y : State) : Holds (LdtValidated y) (loadTaskLdt y.ldtr.sel) := by
  have touch : ∀ {γ : Type} {x : M γ}, Touches x → Holds (LdtValidated y) x := fun hx s ⟨l, hl, hs⟩ =>
    ⟨fun a u h => ⟨l, hl, hs.touched ((hx s).1 a u h)⟩, fun e u h => ⟨l, hl, hs.touched ((hx s).2 e u h)⟩⟩
  exact .ite (fun _ => .pure ()) fun _ => .bind (touch (.require _ _)) fun _ => .bind (touch (.findDesc _ _)) fun x =>
    .bind (touch (.require _ _)) fun _ => .bind (touch (.require _ _)) fun _ =>
    .modify fun _ ⟨_, _, h⟩ => ⟨{ sel := y.ldtr.sel, valid := true, base := descBase x.2, limit := descLimit x.2 }, rfl,
      h.task, h.point, ⟨h.tables.1, rfl⟩, h.sels, h.cpl, h.closed, h.mem⟩

theorem LdtValidated.validated {y x : State} : LdtValidated y x → Validated y x := fun ⟨l, hl, h⟩ =>
  ⟨l, hl, h.task, h.point, h.tables, h.sels, h.cpl, h.closed, fun c hp b => .inl ((h.mem c hp b).resolve_right (·.1))⟩

/-- The end of phase 4: EIP and the T bit. -/
def finishTask (t : Bool) : M Unit := do
  let u ← get
  require (decide (u.eip ≤ u.segs.cs.limit)) (.gp 0)
  if t then modify fun v => { v with pend := { v.pend with bt := true } } else pure ()

/-- What phase 4 does after LDTR, for the selectors and VM of `z`. -/
def validateSegments (z : State) (t : Bool) : M Unit :=
  if z.flags.vm then do
    loadTask8086
    finishTask t
  else do
    loadTaskCS z.segs.cs.sel
    loadTaskSS z.segs.ss.sel
    loadDataSeg .ds z.segs.ds.sel .ts
    loadDataSeg .es z.segs.es.sel .ts
    loadDataSeg .fs z.segs.fs.sel .ts
    loadDataSeg .gs z.segs.gs.sel .ts
    finishTask t

theorem taskValidate_apply (t : Bool) (y : State) :
    taskValidate t y = (do loadTaskLdt y.ldtr.sel; validateSegments y t : M Unit) y := by
  cases h : y.flags.vm <;> rw [taskValidate, M.get_bind_apply, validateSegments, h] <;> rfl

theorem Holds.finishTask {P : Dword → Prop} {y : State} (t : Bool) : Holds (Revised P y) (finishTask t) :=
  .get_bind fun _ _ => .require_bind fun _ =>
    .ite (fun _ => .modify fun _ h => ⟨h.task, h.point, h.tables, h.sels, h.cpl, h.closed, h.mem⟩) fun _ => .pure ()

theorem Holds.validateSegments {y z : State} (hz : y.segs = z.segs) (hf : y.flags = z.flags) (t : Bool) :
    Holds (Revised y.markable y) (validateSegments z t) := by
  rw [Machine.validateSegments, ← hz, ← hf]
  refine .ite (fun _ => .bind .loadTask8086 fun _ => .finishTask t) fun hv => ?_
  have hv : y.flags.vm = false := by rw [← Bool.not_eq_true]; exact hv
  exact .bind (.loadTaskCS hv rfl (y.markable_of hv (r := .cs) (by decide))) fun _ =>
    .bind (.loadTaskSS rfl (y.markable_of hv (r := .ss) (by decide))) fun _ =>
    .bind (.loadDataSeg .ts rfl (y.markable_of hv (r := .ds) (by decide))) fun _ =>
    .bind (.loadDataSeg .ts rfl (y.markable_of hv (r := .es) (by decide))) fun _ =>
    .bind (.loadDataSeg .ts rfl (y.markable_of hv (r := .fs) (by decide))) fun _ =>
    .bind (.loadDataSeg .ts rfl (y.markable_of hv (r := .gs) (by decide))) fun _ => .finishTask t

/-- Phase 4 leaves what phase 3 loaded, whether it completes or not. -/
theorem taskValidate_validated (y : State) (bt : Bool) :
    (∀ u, taskValidate bt y = .ok () u → Validated y u) ∧ ∀ e u, taskValidate bt y = .error e u → Validated y u := by
  rw [taskValidate_apply]
  obtain ⟨hok, herr⟩ := Holds.loadTaskLdt y y ⟨y.ldtr, rfl, .refl _ _⟩
  refine ⟨fun u h => ?_, fun e u h => ?_⟩
  · obtain ⟨a, v, ha, hb⟩ := M.bind_eq_ok h
    obtain ⟨l, hl, hv⟩ := (hok a v ha).validated
    exact ⟨l, hl, (Holds.validateSegments rfl rfl bt v hv).1 () u hb⟩
  · rcases M.bind_eq_error h with h | ⟨a, v, ha, hb⟩
    · exact (herr e u h).validated
    · obtain ⟨l, hl, hv⟩ := (hok a v ha).validated
      exact ⟨l, hl, (Holds.validateSegments rfl rfl bt v hv).2 e u hb⟩

theorem validated_of_survives {y t : State} {bt : Bool} (h : Survives (inNewTask (taskValidate bt)) y t) :
    Validated y t := by
  obtain ⟨hok, herr⟩ := taskValidate_validated y bt
  rw [Survives, inNewTask] at h
  cases hx : taskValidate bt y with
  | ok a u =>
    rw [hx] at h
    rcases h with h | ⟨e, h⟩
    · cases h
      exact hok t hx
    · cases h
  | error r u =>
    rw [hx] at h
    have same : u = t := by
      rcases h with h | ⟨e, h⟩
      · cases r <;> cases h
      · cases r <;> cases h <;> rfl
    exact herr r t (same ▸ hx)

/-- The state that phase 3 leaves, with the general registers `g`. -/
def State.inTask (z : State) (sel : Word) (d : Descriptor) (kind : SwitchKind) (read : List Nat) (g : Regs) : State :=
  (z.committedTo sel d).loadedTask (tss386 d) kind.nests (nthValue read 0)
    (loadedValues (tss386 d) read) g

/-- A switch that was committed, phase by phase. -/
theorem taskSwitch_phases {s t : State} {sel : Word} {d : Descriptor} {kind : SwitchKind}
    (h : Survives (taskSwitch sel d kind) s t) : ∃ b u values v w read z g k,
    locateSwitch s sel d kind s = .ok b u ∧ savedValues s.tr.is386 s (kind.flags s.flags) u = .ok values v ∧
    storeSwitch s kind b values v = .ok () w ∧ memReadAll b.loaded w = .ok read z ∧
    (z.cr0 = s.cr0 ∧ z.dr7 = s.dr7) ∧
    LoadedRegs (tss386 d) (loadedValues (tss386 d) read) g ∧
    Validated { z.inTask sel d kind read g with free := k } t := by
  rw [Survives, taskSwitch_eq] at h
  obtain ⟨_, s', e, -, h⟩ := (Plain.require _ _).survives h
  rw [(require_eq_ok e).2] at h
  obtain ⟨b, u, hb, ⟨u0, u7⟩, h⟩ := (Plain.locateSwitch s sel d kind).survives h
  obtain ⟨values, v, hs, ⟨v0, v7⟩, h⟩ := (Plain.savedValues _ _ _).survives h
  obtain ⟨_, w, hw, ⟨w0, w7⟩, h⟩ := (Plain.storeSwitch s kind b values).survives h
  obtain ⟨read, z, hr, ⟨z0, z7⟩, h⟩ := (Plain.memReadAll _).survives h
  have h := survives_bind (commitSwitch_apply sel d z) h
  dsimp only at h
  obtain ⟨g, k, hg, e⟩ := taskLoad_apply (tss386 d) kind.nests (nthValue read 0)
    (loadedValues (tss386 d) read) (z.committedTo sel d)
  rw [Survives, M.bind_ok e] at h
  exact ⟨b, u, values, v, w, read, z, g, k, hb, hs, hw, hr,
    ⟨((z0.trans w0).trans v0).trans u0, ((z7.trans w7).trans v7).trans u7⟩, hg,
    validated_of_survives h⟩

/-! Memory through a switch, with paging off. -/

/-- The bytes of a field of the TSS at `base`. -/
def fieldBytes (base : Dword) (f : Nat × Nat) : List Dword := addrRun (base + BitVec.ofNat 32 f.1) f.2

theorem locateFields_off {s : State} (hp : s.cr0.pg = false) (base : Dword) (write : Bool) (fs : List (Nat × Nat)) :
    locateFields base write fs s = .ok (fs.map (fieldBytes base)) s := by
  induction fs with
  | nil => rfl
  | cons f fs ih =>
    rw [locateFields, M.bind_ok (linLocate_off hp _ _ _ _), M.bind_ok ih]
    rfl

/-- Where a switch reads and writes with paging off. -/
def State.switchBytes (s : State) (sel : Word) (d : Descriptor) (kind : SwitchKind) : SwitchBytes where
  saved := (savedFields s.tr.is386).map (fieldBytes s.tr.base)
  loaded := (loadedFields (tss386 d)).map (fieldBytes (descBase d))
  link := if kind.nests then addrRun (descBase d) 2 else []
  oldBusy := if kind.nests then [] else [typeByteAddr s s.tr.sel]
  newBusy := if kind = .iret then [] else [typeByteAddr s sel]

theorem locateSwitch_off {s : State} (hp : s.cr0.pg = false) (sel : Word) (d : Descriptor) (kind : SwitchKind) :
    locateSwitch s sel d kind s = .ok (s.switchBytes sel d kind) s := by
  have h := fun lin n => linLocate_off hp lin n true true
  rw [locateSwitch, M.bind_ok (locateFields_off hp _ _ _), M.bind_ok (locateFields_off hp _ _ _)]
  cases kind <;>
    simp only [SwitchKind.nests, reduceCtorEq, Bool.false_eq_true, if_true, if_false, M.bind_ok (h _ _), pure_bind] <;>
    rfl

theorem selectorSlots_apply (ws : List Word) (i : Nat) (s : State) : ∃ any : Nat → Word, ∃ k, selectorSlots ws s =
    .ok ((ws.zipIdx i).map fun x => (any x.2).toNat * 65536 + x.1.toNat) { s with free := k } := by
  induction ws generalizing i s with
  | nil => exact ⟨fun _ => 0, s.free, rfl⟩
  | cons w ws ih =>
    obtain ⟨hi, -, hlt, e⟩ := selectorSlot_apply true w s
    obtain ⟨any, k, e'⟩ := ih (i + 1) { s with free := s.free + true.toNat }
    refine ⟨fun j => if j = i then BitVec.ofNat 16 hi else any j, k, ?_⟩
    have hhi : (BitVec.ofNat 16 hi).toNat = hi := by rw [BitVec.toNat_ofNat, Nat.mod_eq_of_lt hlt]
    have tail : ∀ x ∈ ws.zipIdx (i + 1), (any x.2).toNat * 65536 + x.1.toNat =
        (if x.2 = i then BitVec.ofNat 16 hi else any x.2).toNat * 65536 + x.1.toNat := fun x hx => by
      have later := List.le_snd_of_mem_zipIdx hx
      rw [if_neg (by omega)]
    rw [selectorSlots, M.bind_ok e, M.bind_ok e', List.map_congr_left tail, List.zipIdx_cons, List.map_cons]
    dsimp only
    rw [if_pos rfl, hhi]
    rfl

/-- The values saved of the outgoing task. -/
theorem savedValues_apply (s u : State) (f : Flags) : ∃ any k,
    savedValues s.tr.is386 s f u = .ok (s.savedFor f.image any) { u with free := k } := by
  unfold savedValues State.savedFor
  cases s.tr.is386 with
  | true =>
    obtain ⟨any, k, e⟩ := selectorSlots_apply ([s.segs.es.sel, s.segs.cs.sel, s.segs.ss.sel, s.segs.ds.sel] ++
      [s.segs.fs.sel, s.segs.gs.sel]) 0 u
    refine ⟨any, k, ?_⟩
    rw [if_pos rfl, if_pos rfl, M.bind_ok e]
    rfl
  | false => exact ⟨fun _ => 0, u.free, rfl⟩

theorem savedFor_length (s : State) (f : Dword) (any : Nat → Word) :
    (s.savedFor f any).length = (savedFields s.tr.is386).length := by
  rw [State.savedFor]
  cases s.tr.is386 <;> rfl

theorem Memory.writeAll_zip_range (m : Memory) (slot : Nat → List Dword) (vs : List Nat) (i : Nat) :
    m.writeAll (((List.range' i vs.length).map slot).zip vs) =
      (vs.zipIdx i).foldl (fun m x => m.writeAt (slot x.2) x.1) m := by
  induction vs generalizing m i with
  | nil => rfl
  | cons v vs ih => exact ih _ _

theorem savedFields_slots (is386 : Bool) (base : Dword) : (savedFields is386).map (fieldBytes base) =
    (List.range' 0 (savedFields is386).length).map fun i => tssSlot is386 base i (if is386 then 4 else 2) := by
  cases is386 <;> rfl

theorem State.putBytes_prefetch (s : State) (ps : List Dword) (v : Nat) :
    ∃ q, s.putBytes ps v = { s with mem := s.mem.writeAt ps v, prefetch := q } := ⟨_, s.putBytes_eq ps v⟩

/-- Changing one type byte. -/
theorem changeTypeByte_closed {s : State} (c : s.closed = true) (a : Dword) (clear set_ : Byte) : ∃ q,
    changeTypeByte [a] clear set_ s = .ok () { s with
      mem := s.mem.write a.toNat ((s.mem.read a.toNat &&& ~~~clear) ||| set_), prefetch := q } := by
  obtain ⟨q, e⟩ := s.putBytes_prefetch [a] ((s.mem.read a.toNat &&& ~~~clear) ||| set_).toNat
  rw [Memory.writeAt_one] at e
  rw [changeTypeByte, lockedModify_closed c, Memory.readAt_one, e]
  exact ⟨q, rfl⟩

theorem memWrite_prefetch {s : State} (c : s.closed = true) (ps : List Dword) (v : Nat) : ∃ q,
    memWrite ps v s = .ok () { s with mem := s.mem.writeAt ps v, prefetch := q } := by
  obtain ⟨q, e⟩ := s.putBytes_prefetch ps v
  rw [memWrite_closed c, e]
  exact ⟨q, rfl⟩

/-- Memory with the values saved. -/
theorem writeAll_savedFields (s : State) (f : Dword) (any : Nat → Word) :
    s.mem.writeAll (((savedFields s.tr.is386).map (fieldBytes s.tr.base)).zip (s.savedFor f any)) =
      (s.savedFor f any).zipIdx.foldl
        (fun m x => m.writeAt (tssSlot s.tr.is386 s.tr.base x.2 (if s.tr.is386 then 4 else 2)) x.1) s.mem := by
  rw [savedFields_slots, ← savedFor_length s f any]
  exact Memory.writeAll_zip_range _ (fun i => tssSlot s.tr.is386 s.tr.base i (if s.tr.is386 then 4 else 2)) _ 0

/-- The outgoing EFLAGS as `switchedMem` writes them. -/
theorem switchKind_flags (kind : SwitchKind) (f : Flags) :
    kind.flags f = { f with nt := f.nt && decide (kind ≠ .iret) } := by
  cases kind <;> simp [SwitchKind.flags]

/-- Memory with the outgoing task left: its back link or its busy bit. -/
def SwitchKind.left (kind : SwitchKind) (link : List Dword) (sel : Word) (a : Dword) (m : Memory) : Memory :=
  if kind = .call ∨ kind = .int then m.writeAt link sel.toNat else m.write a.toNat (m.read a.toNat &&& 0xFD)

/-- Memory with the busy bit of the incoming task. -/
def SwitchKind.entered (kind : SwitchKind) (a : Dword) (m : Memory) : Memory :=
  if kind = .iret then m else m.write a.toNat (m.read a.toNat ||| 2)

theorem switchedMem_eq (s : State) (sel : Word) (d : Descriptor) (kind : SwitchKind) (any : Nat → Word) :
    s.switchedMem sel d kind any = kind.entered (typeByteAddr s sel)
      (kind.left (addrRun (descBase d) 2) s.tr.sel (typeByteAddr s s.tr.sel)
        (s.mem.writeAll (((savedFields s.tr.is386).map (fieldBytes s.tr.base)).zip
          (s.savedFor (kind.flags s.flags).image any)))) := by
  rw [writeAll_savedFields, switchKind_flags]
  rfl

section
variable {u : State} (c : u.closed = true)
include c

theorem leave_closed (kind : SwitchKind) (link : List Dword) (sel : Word) (a : Dword) : ∃ q,
    (if kind.nests then memWrite (if kind.nests then link else []) sel.toNat
      else changeTypeByte (if kind.nests then [] else [a]) 2 0 : M Unit) u =
      .ok () { u with mem := kind.left link sel a u.mem, prefetch := q } := by
  have clears : ∀ x : Byte, x &&& ~~~2 ||| 0 = x &&& 0xFD := fun x => BitVec.or_zero
  have busy := changeTypeByte_closed c a 2 0
  rw [clears] at busy
  cases kind with
  | jmp => exact busy
  | call => exact memWrite_prefetch c link sel.toNat
  | int => exact memWrite_prefetch c link sel.toNat
  | iret => exact busy

theorem enter_closed (kind : SwitchKind) (a : Dword) : ∃ q,
    (if kind = .iret then pure () else changeTypeByte (if kind = .iret then [] else [a]) 0 2 : M Unit) u =
      .ok () { u with mem := kind.entered a u.mem, prefetch := q } := by
  have sets : ∀ x : Byte, x &&& ~~~0 ||| 2 = x ||| 2 := fun x => congrArg (· ||| 2) BitVec.and_allOnes
  have busy := changeTypeByte_closed c a 0 2
  rw [sets] at busy
  cases kind with
  | jmp => exact busy
  | call => exact busy
  | int => exact busy
  | iret => exact ⟨u.prefetch, rfl⟩

theorem State.closed_withMem {m : Memory} (h : m.wf = true) (q : List Host.Cell) :
    ({ u with mem := m, prefetch := q } : State).closed = true := by
  rw [closed_iff] at c ⊢
  exact ⟨h, c.2⟩

end

theorem SwitchKind.wf_left (kind : SwitchKind) (link : List Dword) (sel : Word) (a : Dword) {m : Memory}
    (h : m.wf = true) : (kind.left link sel a m).wf = true := by
  rw [left]
  split
  · exact Memory.wf_writeAt _ _ h
  · exact Memory.wf_write _ h a.isLt

theorem SwitchKind.wf_entered (kind : SwitchKind) (a : Dword) {m : Memory} (h : m.wf = true) :
    (kind.entered a m).wf = true := by
  rw [entered]
  split
  · exact h
  · exact Memory.wf_write _ h a.isLt

/-- What a switch stores, in the closed world. -/
theorem storeSwitch_closed {s : State} (c : s.closed = true) (sel : Word) (d : Descriptor) (kind : SwitchKind)
    (any : Nat → Word) (k : Nat) : (s.switchedMem sel d kind any).wf = true ∧ ∃ q,
    storeSwitch s kind (s.switchBytes sel d kind) (s.savedFor (kind.flags s.flags).image any) { s with free := k } =
      .ok () { s with mem := s.switchedMem sel d kind any, prefetch := q, free := k } := by
  rw [switchedMem_eq]
  have c0 : ({ s with free := k } : State).closed = true := c
  have w1 := Memory.wf_writeAll (s.closed_wf c) (((savedFields s.tr.is386).map (fieldBytes s.tr.base)).zip
    (s.savedFor (kind.flags s.flags).image any))
  obtain ⟨q1, e1⟩ := memWriteAll_closed c0 ((savedFields s.tr.is386).map (fieldBytes s.tr.base))
    (s.savedFor (kind.flags s.flags).image any)
  have c1 := State.closed_withMem c0 w1 q1
  have w2 := kind.wf_left (addrRun (descBase d) 2) s.tr.sel (typeByteAddr s s.tr.sel) w1
  obtain ⟨q2, e2⟩ := leave_closed c1 kind (addrRun (descBase d) 2) s.tr.sel (typeByteAddr s s.tr.sel)
  obtain ⟨q3, e3⟩ := enter_closed (State.closed_withMem c1 w2 q2) kind (typeByteAddr s sel)
  refine ⟨kind.wf_entered _ w2, q3, ?_⟩
  rw [storeSwitch, State.switchBytes, M.bind_ok e1, M.bind_ok e2]
  exact e3

/-! What the incoming task has. -/

/-- The values of the fields of the TSS at `base`. -/
def Memory.fields (m : Memory) (is386 : Bool) (base : Dword) : List Nat :=
  ((loadedFields is386).map (fieldBytes base)).map m.readAt

theorem loadedValues_wide (m : Memory) (is386 : Bool) (base : Dword) : ∀ k < 10,
    nthValue (loadedValues is386 (m.fields is386 base)) k =
      m.readAt (tssSlot is386 base k (if is386 then 4 else 2)) := by
  intro k hk
  cases is386 <;> interval_cases k <;> rfl

theorem loadedValues_word (m : Memory) (is386 : Bool) (base : Dword) : ∀ k, 10 ≤ k → k ≤ (if is386 then 16 else 14) →
    nthValue (loadedValues is386 (m.fields is386 base)) k = m.readAt (tssSlot is386 base k 2) := by
  intro k hk hn
  cases is386 with
  | true =>
    replace hn : k ≤ 16 := hn
    interval_cases k <;> rfl
  | false =>
    replace hn : k ≤ 14 := hn
    interval_cases k <;> rfl

theorem loaded_pageDir (m : Memory) (base : Dword) :
    nthValue (m.fields true base) 0 = m.readAt (addrRun (base + 0x1C) 4) := rfl

theorem State.inTask_tr (z : State) (sel : Word) (d : Descriptor) (kind : SwitchKind) (read : List Nat) (g : Regs) :
    (z.inTask sel d kind read g).tr =
      { sel := sel, base := descBase d, limit := descLimit d,
        is386 := decide (descType d = 9 ∨ descType d = 11) } := by
  rw [Bool.decide_or]
  rfl

theorem State.inTask_cr0 (z : State) (sel : Word) (d : Descriptor) (kind : SwitchKind) (read : List Nat) (g : Regs) :
    (z.inTask sel d kind read g).cr0 = { z.cr0 with ts := true } := by
  rw [inTask, loadedTask, committedTo]
  simp only [noteHits_cr0]

theorem State.inTask_dr7 (z : State) (sel : Word) (d : Descriptor) (kind : SwitchKind) (read : List Nat) (g : Regs) :
    (z.inTask sel d kind read g).dr7 = z.dr7 &&& ~~~(0x155 : Dword) := by
  rw [inTask, loadedTask, committedTo]
  simp only [noteHits_dr7]

theorem State.inTask_mem (z : State) (sel : Word) (d : Descriptor) (kind : SwitchKind) (read : List Nat) (g : Regs) :
    (z.inTask sel d kind read g).mem = z.mem ∧
      ((z.inTask sel d kind read g).closed = z.closed) := by
  have hm : (z.inTask sel d kind read g).mem = z.noteHits.mem := rfl
  have hc : (z.inTask sel d kind read g).closed = z.noteHits.closed := rfl
  rw [hm, hc, closed, closed, noteHits_mem, noteHits_masters, noteHits_map]
  exact ⟨rfl, rfl⟩

theorem State.inTask_cpl (z : State) (sel : Word) (d : Descriptor) (kind : SwitchKind) (read : List Nat) (g : Regs)
    (h : (z.inTask sel d kind read g).flags.vm = true) : (z.inTask sel d kind read g).cpl = 3 := if_pos h

theorem SwitchKind.nests_eq (kind : SwitchKind) : kind.nests = decide (kind = .call ∨ kind = .int) := by
  cases kind <;> rfl

theorem tss386_eq (d : Descriptor) : tss386 d = decide (descType d = 9 ∨ descType d = 11) := by
  rw [Bool.decide_or]
  rfl

/-- A byte that phase 4 may mark holds the A bit of a descriptor that the new task names. -/
theorem Revised.markable {P : Dword → Prop} {y t : State} (h : Revised P y t) {b : Dword} (hb : y.markable b) :
    t.flags.vm = false ∧ ∃ x ∈ [Sreg.cs, .ss, .ds, .es, .fs, .gs], b = t.typeByte (t.segs.get x).sel := by
  obtain ⟨hv, x, hx, hb⟩ := hb
  obtain ⟨-, hf, -⟩ := h.point
  obtain ⟨hg, hl⟩ := h.tables
  refine ⟨hf ▸ hv, x, hx, ?_⟩
  rw [hb, h.sels, State.typeByte, State.typeByte, hg, hl]

/-- What the new task has after phase 4, with the fields of its TSS read in memory. -/
theorem Validated.loadedFrom {s z t : State} {sel : Word} {d : Descriptor} {kind : SwitchKind} {g : Regs} {k : Nat}
    (c : z.closed = true) (hp : z.cr0.pg = false) (hcr3 : z.cr3 = s.cr3)
    (hg : LoadedRegs (tss386 d) (loadedValues (tss386 d) (z.mem.fields (tss386 d) (descBase d))) g)
    (hv : Validated { z.inTask sel d kind (z.mem.fields (tss386 d) (descBase d)) g with free := k } t) :
    LoadedFrom s t d kind z.mem (tss386 d) := by
  obtain ⟨l, hl, h⟩ := hv
  obtain ⟨-, -, -, tcr3⟩ := h.task
  obtain ⟨teip, tflags, tregs⟩ := h.point
  obtain ⟨tgdtr, tldtr⟩ := h.tables
  have wide := loadedValues_wide z.mem (tss386 d) (descBase d)
  have word := loadedValues_word z.mem (tss386 d) (descBase d)
  obtain ⟨hm, hc⟩ := z.inTask_mem sel d kind (z.mem.fields (tss386 d) (descBase d)) g
  have hpg := congrArg Cr0.pg (z.inTask_cr0 sel d kind (z.mem.fields (tss386 d) (descBase d)) g)
  have sel_at : ∀ k, 10 ≤ k → k ≤ 14 →
      BitVec.ofNat 16 (nthValue (loadedValues (tss386 d) (z.mem.fields (tss386 d) (descBase d))) k) =
        BitVec.ofNat 16 (z.mem.readAt (tssSlot (tss386 d) (descBase d) k 2)) := fun k h1 h2 => by
    rw [word k h1 (by split <;> omega)]
  have more_at : ∀ k, 10 ≤ k → k ≤ 15 →
      (if tss386 d then BitVec.ofNat 16 (nthValue (loadedValues (tss386 d) (z.mem.fields (tss386 d) (descBase d))) k)
        else 0) = if tss386 d then BitVec.ofNat 16 (z.mem.readAt (tssSlot true (descBase d) k 2)) else 0 :=
      fun k h1 h2 => by
    split
    case isTrue h386 => rw [word k h1 (by rw [if_pos h386]; omega), h386]
    case isFalse => rfl
  refine ⟨?_, ?_, ?_, ?_, ?_, ?_, ?_, fun b => ?_⟩
  · rw [teip, ← wide 0 (by decide)]
    rfl
  · dsimp only
    rw [tflags, ← wide 1 (by decide), ← kind.nests_eq]
    rfl
  · intro x hx
    have lt : x.2 < 10 := by
      revert x
      decide
    have hr := hg x hx
    rw [LoadedReg, wide x.2 lt] at hr
    rw [tregs]
    generalize tss386 d = is386 at hr ⊢
    cases is386 <;> exact hr
  · simp only [List.forall_mem_cons]
    exact ⟨(h.sels .es).trans (sel_at 10 (by decide) (by decide)),
      (h.sels .cs).trans (sel_at 11 (by decide) (by decide)),
      (h.sels .ss).trans (sel_at 12 (by decide) (by decide)),
      (h.sels .ds).trans (sel_at 13 (by decide) (by decide)), fun _ h => nomatch h⟩
  · simp only [List.forall_mem_cons]
    exact ⟨(h.sels .fs).trans (more_at 14 (by decide) (by decide)),
      (h.sels .gs).trans (more_at 15 (by decide) (by decide)), fun _ h => nomatch h⟩
  · rw [tldtr]
    refine hl.trans ?_
    change (if tss386 d then BitVec.ofNat 16 (nthValue _ 16) else BitVec.ofNat 16 (nthValue _ 14)) = _
    split
    case isTrue h386 => rw [word 16 (by decide) (by rw [if_pos h386])]
    case isFalse h386 => rw [word 14 (by decide) (by rw [if_neg h386])]
  · rw [tcr3]
    change (if tss386 d then (BitVec.ofNat 32 (nthValue (z.mem.fields (tss386 d) (descBase d)) 0)).extractLsb' 12 20
      else z.noteHits.cr3) = _
    split
    case isTrue h386 => rw [h386, loaded_pageDir]
    case isFalse => rw [State.noteHits_cr3, hcr3]
  · rcases h.mem (hc.trans c) (hpg.trans hp) b with hb | ⟨hP, hb⟩
    · exact .inl (hb.trans (congrArg (·.read b.toNat) hm))
    · obtain ⟨hvm, hx⟩ := h.markable hP
      exact .inr ⟨hvm, hx, hb.trans (congrArg (·.read b.toNat ||| 1) hm)⟩

/-- A committed switch with paging off, in the closed world. -/
theorem taskSwitch_loads {s t : State} {sel : Word} {d : Descriptor} {kind : SwitchKind} (c : s.closed = true)
    (hp : s.cr0.pg = false) (h : Survives (taskSwitch sel d kind) s t) :
    ∃ any, LoadedFrom s t d kind (s.switchedMem sel d kind any) (tss386 d) := by
  obtain ⟨b, u, values, v, w, read, z, g, k, hb, hs, hw, hr, ⟨h0, -⟩, hg, hv⟩ := taskSwitch_phases h
  cases (locateSwitch_off hp sel d kind).symm.trans hb
  obtain ⟨any, k', e⟩ := savedValues_apply s s (kind.flags s.flags)
  cases e.symm.trans hs
  obtain ⟨wf, q, e⟩ := storeSwitch_closed c sel d kind any k'
  cases e.symm.trans hw
  have cz : ({ s with mem := s.switchedMem sel d kind any, prefetch := q, free := k' } : State).closed = true :=
    State.closed_withMem (u := { s with free := k' }) c wf q
  cases (memReadAll_closed cz _).symm.trans hr
  exact ⟨any, hv.loadedFrom cz hp rfl hg⟩

/-- Settles O59: each phase of the switch is taken apart, and what phase 4 may change kept by `Revised`. -/
theorem taskSwitchCommits : Obligations.TaskSwitchCommits := by
  intro s t sel d kind h
  obtain ⟨b, u, values, v, w, read, z, g, k, -, -, -, -, ⟨h0, h7⟩, -, hv⟩ := taskSwitch_phases h
  obtain ⟨l, -, hr⟩ := hv
  obtain ⟨ttr, tcr0, tdr7, -⟩ := hr.task
  obtain ⟨-, tflags, -⟩ := hr.point
  refine ⟨ttr.trans (z.inTask_tr sel d kind read g), tcr0.trans ?_, tdr7.trans ?_, fun hk => ?_, fun hvm => ?_,
    fun c hp => ?_⟩
  · rw [← h0]
    exact z.inTask_cr0 sel d kind read g
  · rw [← h7]
    exact z.inTask_dr7 sel d kind read g
  · have nests : kind.nests = true := by rw [kind.nests_eq, decide_eq_true hk]
    rw [tflags]
    exact Bool.or_eq_true_iff.2 (.inr nests)
  · rw [tflags] at hvm
    exact (hr.cpl hvm).trans (z.inTask_cpl sel d kind read g hvm)
  · rw [← tss386_eq]
    exact taskSwitch_loads c hp h

end Sys2Proof.Machine
